-- ==== Sys2Proof/Word.lean ====
section
/-! DEFINITION. The plain data every other file builds on: the byte, a table of a fixed number of records, and clamping. -/

namespace Sys2Proof

/-- A byte on a port. -/
abbrev Byte := BitVec 8

/-- A value brought into `lo..hi`: below it becomes `lo`, above it `hi` (00_scope.md, "Arithmetic"). -/
def clampNat (lo hi x : Nat) : Nat := if x < lo then lo else if hi < x then hi else x

/-- `clampNat` for signed values (temperatures). -/
def clampInt (lo hi x : Int) : Int := if x < lo then lo else if hi < x then hi else x

/-- A table of exactly `n` records, numbered `0..n-1`. -/
structure Tab (n : Nat) (α : Type) where
  cells : List α
  size : cells.length = n
deriving DecidableEq, Repr

namespace Tab

variable {n : Nat} {α β : Type}

/-- The record numbered `i`. -/
def get (t : Tab n α) (i : Fin n) : α := t.cells[i.val]'(by rw [t.size]; exact i.isLt)

/-- The table whose record `i` is `f i`. -/
def ofFn (f : Fin n → α) : Tab n α := ⟨List.ofFn f, List.length_ofFn⟩

/-- The table whose every record is `a`. -/
def fill (n : Nat) (a : α) : Tab n α := ⟨List.replicate n a, List.length_replicate⟩

/-- The table with record `i` replaced. -/
def set (t : Tab n α) (i : Fin n) (a : α) : Tab n α := ⟨t.cells.set i.val a, by rw [List.length_set, t.size]⟩

/-- The table with record `i` changed by `f`. -/
def modify (t : Tab n α) (i : Fin n) (f : α → α) : Tab n α := t.set i (f (t.get i))

/-- The table with every record changed by `f`. -/
def map (f : α → β) (t : Tab n α) : Tab n β := ⟨t.cells.map f, by rw [List.length_map, t.size]⟩

/-- A table of the records of a list, `a` standing where the list is too short. -/
def ofListD (n : Nat) (a : α) (l : List α) : Tab n α := ofFn fun i => l.getD i.val a

end Tab

end Sys2Proof
end

