-- ==== Sys2Proof/Syntax.lean ====
section
/-! DEFINITION. The commands of the JH2412: one constructor for each row of spec/opcode_table.json. The rows give no operands, so the
operands here are what the rule of each row needs from outside the part (log 1 to log 4). -/

namespace Sys2Proof

/-- The three masters, each on a port of its own (10, first table). -/
inductive Master where
  | room
  | source
  | service
deriving DecidableEq, Repr

/-- The fault classes whose subject is a loop, in class order 0..4 (R140). -/
inductive LoopClass where
  | driveOvercurrent
  | driveOpen
  | stuckClosed
  | stuckOpen
  | returnSensor
deriving DecidableEq, Repr

/-- One 12-bit code for each of the 26 thermistor channels (R40). -/
abbrev Codes := Tab 26 (BitVec 12)

/-- A command: a request taken at a port, or an event at one of the part's lines, timers or counters. -/
inductive Instr where
  /-- R154: a byte arrives on a port, with a good stop bit or not. -/
  | byteReceived (port : Master) (byte : Byte) (stopGood : Bool)
  /-- R154: 2 ms pass with no byte on the port. -/
  | receiveGapElapsed (port : Master)
  /-- R157: the last check byte of the port's reply has been sent. -/
  | replySent (port : Master)
  /-- R156: a request of a kind that the table of 10.3 does not hold. -/
  | unknownKind (port : Master) (kind : Byte) (payload : List Byte)
  /-- R158: READ TABLE. -/
  | readTable (port : Master) (payload : List Byte)
  /-- R163: ENABLE NOTICES. -/
  | enableNotices (port : Master) (payload : List Byte)
  /-- R163: ACK NOTICES. -/
  | ackNotices (port : Master) (payload : List Byte)
  /-- R165: POST MAIL. -/
  | postMail (port : Master) (payload : List Byte)
  /-- R166: TAKE MAIL. -/
  | takeMail (port : Master) (payload : List Byte)
  /-- R52: POST DEMAND. -/
  | postDemand (port : Master) (payload : List Byte)
  /-- R13 to R15: SET PIN. -/
  | setPin (port : Master) (payload : List Byte)
  /-- R16: DROP PIN. -/
  | dropPin (port : Master) (payload : List Byte)
  /-- R128: POST SOURCE. -/
  | postSource (port : Master) (payload : List Byte)
  /-- R24: WRITE SETTINGS naming GENERAL. -/
  | writeGeneral (port : Master) (index : Byte) (record : List Byte)
  /-- R2: WRITE SETTINGS naming LOOP SETTINGS. -/
  | writeLoopSettings (port : Master) (index : Byte) (record : List Byte)
  /-- R10: WRITE SETTINGS naming ROOMS. -/
  | writeRooms (port : Master) (index : Byte) (record : List Byte)
  /-- R43: WRITE SETTINGS naming CONVERSION. -/
  | writeConversion (port : Master) (index : Byte) (record : List Byte)
  /-- R162: WRITE SETTINGS naming ROUTES. -/
  | writeRoutes (port : Master) (index : Byte) (record : List Byte)
  /-- R141: WRITE SETTINGS naming FAULT RESPONSES. -/
  | writeFaultResponses (port : Master) (index : Byte) (record : List Byte)
  /-- R159: WRITE SETTINGS with too short a payload, or naming no settings table. -/
  | writeSettingsOther (port : Master) (payload : List Byte)
  /-- R32: SAVE SETTINGS. -/
  | saveSettings (port : Master) (payload : List Byte)
  /-- R32: the save in flight ends; `agrees` says whether the content read back equals the snapshot. -/
  | saveComplete (agrees : Bool)
  /-- R151: CLEAR FAULTS with a list of pairs. -/
  | clearFaults (port : Master) (payload : List Byte)
  /-- R151: CLEAR FAULTS with ALL. -/
  | clearFaultsAll (port : Master)
  /-- R102: CLEAR CAPTURE with a list of loops. -/
  | clearCapture (port : Master) (payload : List Byte)
  /-- R102: CLEAR CAPTURE with ALL. -/
  | clearCaptureAll (port : Master)
  /-- R20: RELEARN. -/
  | relearn (port : Master) (payload : List Byte)
  /-- R22, R91: RESET PLAN. -/
  | resetPlan (port : Master) (payload : List Byte)
  /-- R36: RESTART. -/
  | restart (port : Master) (payload : List Byte)
  /-- R36: the reset pin is held low, or the logic supply is below its working level. -/
  | resetHold
  /-- R36: the full reset itself, with the actuator supply at that moment in millivolts (R127). -/
  | fullReset (supplyMillivolts : Nat)
  /-- R21: the slot length in force has elapsed. The codes are those of the slot that ends (R40). -/
  | slotEnd (codes : Codes)
  /-- R46: the sensor-fault condition of a channel is decided, absent to present. -/
  | sensorFaultPresent (channel : Fin 26)
  /-- R46, R47: the sensor-fault condition of a channel is decided, present to absent. -/
  | sensorFaultEnds (channel : Fin 26)
  /-- R100: an armed dead-time measurement is at 12 slots since start. -/
  | deadTimeTimeout (loop : Fin 24)
  /-- R146: an armed stuck-closed check is at the stuck window. -/
  | stuckClosedWindow (loop : Fin 24)
  /-- R147: a stuck-open count is at the stuck window. -/
  | stuckOpenWindow (loop : Fin 24)
  /-- R131: the source age is at the source timeout. -/
  | sourceTimeout
  /-- R136: the settle slots elapsed are at the settle count. -/
  | settleEnd
  /-- R144: a RETRY hold of a loop record is at the retry time. -/
  | retryExpiry (cls : LoopClass) (loop : Fin 24)
  /-- R118: at a slot start, the start arbiter serves the PENDING channels. -/
  | pendingStartServed
  /-- R21: the boundary at the end of slot 47. -/
  | frameEnd (codes : Codes)
  /-- R35: the frame end at which the autosave count would reach 90. -/
  | autosaveCheck
  /-- R35: the frame end at which a postponed autosave finds no save in progress. -/
  | postponedAutosave
  /-- R54, R55: a room's age is at the demand timeout. -/
  | roomDemandTimeout (room : Fin 16)
  /-- R91: the slot boundary, at the end of slot 0..46, at which a RESET PLAN is carried out. -/
  | planResetBoundary (codes : Codes)
  /-- R114: a channel's boost elapsed is at the boost time. -/
  | boostTimeElapsed (loop : Fin 24)
  /-- R115: 1 ms of driven time at a load current of `milliamps`, begun when the switch has been on for `onFor` ms of its drive period. -/
  | inrushLimit (loop : Fin 24) (milliamps onFor : Nat)
  /-- R116: `driven` ms of driven time at a load current of `milliamps`, as the overcurrent sensing takes it. -/
  | overcurrentDetected (loop : Fin 24) (milliamps driven : Nat)
  /-- R117: `driven` ms of driven time at a load current of `milliamps`, as the open-load sensing takes it. -/
  | openLoadDetected (loop : Fin 24) (milliamps driven : Nat)
  /-- R117: `driven` ms of driven time at a load current of `milliamps`, as the recovery sensing takes it. -/
  | openLoadRecovered (loop : Fin 24) (milliamps driven : Nat)
  /-- R125: a follower whose FAULT cause waits for its leader's channel, which is no longer energised. -/
  | followerFaultRelease (loop : Fin 24)
  /-- R120: the actuator supply, falling, is at `millivolts`. -/
  | supplyFallsLow (millivolts : Nat)
  /-- R121: the actuator supply, rising, is at `millivolts`. -/
  | supplyReturns (millivolts : Nat)
  /-- R114: a 100 ms drive period of an energised channel ends. -/
  | drivePeriodEnd (loop : Fin 24)
deriving DecidableEq, Repr

end Sys2Proof
end

