-- ==== Sys2Proof/Decode.lean ====
section
/-! DEFINITION. Words to commands. The JH2412 has no instruction words: no row of spec/opcode_table.json gives bits (every "fields" is
empty and no row has "fixed"), so no word spells a command (log 4). Requests reach the part as frames on its ports instead; those are read
byte by byte in Machine/Operands.lean and Machine/Requests.lean. -/

namespace Sys2Proof

/-- The command that a word spells by the table's bits: none, on every word. -/
def decodeTableWord (_nbits _w : Nat) : Option Instr := none

end Sys2Proof
end

