-- ==== Sys2Proof/Config.lean ====
section
/-! DEFINITION. What the spec leaves to the part: the free values. Each is a constant with no body, so nothing can be proved about which
value it takes. Each is applied to the count of slot ends (`State.draws`), so that every slot end has one of its own. -/

namespace Sys2Proof.Config

/-- FREE VALUE (R144, log 8). Where RETRY expiries and changes of conditions fall at the same slot end, `true` says that the expiries are
taken before the changes. -/
opaque expiriesFirst : Nat → Bool

/-- FREE VALUE (R96, log 9). Where a loop's hold begins or ends at a slot end, `true` says that the balance unit takes the slot's sample
after the supervisor's change, so that the hold as changed decides it. Its second argument is the loop. -/
opaque sampleAfterSupervisor : Nat → Nat → Bool

/-- FREE VALUE (R35, R40, log 26). The code that the converter hands on for a channel at a frame end whose command carries no codes
(AUTOSAVE_CHECK, POSTPONED_AUTOSAVE). Its second argument is the channel. -/
opaque unstatedCode : Nat → Nat → BitVec 12

end Sys2Proof.Config
end

