-- ==== Sys2Proof/Machine/Types.lean ====
section
/-! DEFINITION. The records the JH2412 holds, table by table, as plain data. -/

namespace Sys2Proof.Machine

open Sys2Proof

/-- A loop, and its channel (00, "Numbering"). -/
abbrev LoopNo := Fin 24

/-- A frame number: 0..65535, wrapping (R22). -/
abbrev FrameNo := Fin 65536

/-- The two manifolds: A carries loops 0..11, B carries loops 12..23. -/
inductive Manifold where
  | a
  | b
deriving DecidableEq, Repr

/-- One thing for each of the three masters. -/
structure PerMaster (α : Type) where
  room : α
  source : α
  service : α
deriving DecidableEq, Repr

/-- The thing of one master. -/
def PerMaster.get {α : Type} (t : PerMaster α) : Master → α
  | .room => t.room
  | .source => t.source
  | .service => t.service

/-- The thing of one master replaced. -/
def PerMaster.set {α : Type} (t : PerMaster α) (m : Master) (a : α) : PerMaster α :=
  match m with
  | .room => { t with room := a }
  | .source => { t with source := a }
  | .service => { t with service := a }

/-- The same thing for all three. -/
def PerMaster.all {α : Type} (a : α) : PerMaster α := ⟨a, a, a⟩

/-! ### Link (10) -/

/-- The status of a reply (R156). -/
inductive Status where
  | ok
  | clamped
  | badKind
  | badLength
  | badIndex
  | notOwner
  | inUse
  | noRoom
  | conflict
  | full
  | empty
  | busy
  | stillActive
  | badTarget
deriving DecidableEq, Repr

/-- A set of the 12 notice kinds, bit `i` for kind `i` (10.5). -/
abbrev KindSet := BitVec 12

/-- A reply being sent (R157): its check is computed from these (R155). -/
structure Reply where
  status : Status
  pending : KindSet
  payload : List Byte
deriving DecidableEq, Repr

/-- The state of a port (R154). -/
inductive PortState where
  | idle
  | receiving
  | replying
deriving DecidableEq, Repr

/-- One port: its state, its receive buffer, whether the frame being received is already malformed, and its reply (R154, R157). -/
structure Port where
  state : PortState
  buffer : List Byte
  malformed : Bool
  reply : Option Reply
deriving DecidableEq, Repr

/-! ### Notices and mail (11) -/

/-- A message in a mail queue (R165). -/
structure Mail where
  sender : Master
  words : List (BitVec 16)
deriving DecidableEq, Repr

/-- What the notice unit holds for one master (R161 to R166). -/
structure Notices where
  pending : KindSet
  enabled : KindSet
  mail : List Mail
deriving DecidableEq, Repr

/-- A set of masters: bit 0 ROOM, bit 1 SOURCE, bit 2 SERVICE in its byte (R162). -/
structure MasterSet where
  room : Bool
  source : Bool
  service : Bool
deriving DecidableEq, Repr

/-! ### Settings (01, 02, 03, 09, 11) -/

/-- The GENERAL record, fields 1 to 27 of R24 in their order. Times, currents and thresholds are in the units of R24. -/
structure General where
  slotLength : Nat
  minRun : Nat
  startBudget : Nat
  exerciseInterval : Nat
  balanceGain : Nat
  flowStepUp : Nat
  flowStepDown : Nat
  headroom : Nat
  floorCap : Nat
  autoCeiling : Nat
  autoFlowMin : Nat
  autoFlowMax : Nat
  demandTimeout : Nat
  sourceTimeout : Nat
  settleCount : Nat
  boostTime : Nat
  holdDuty : Nat
  inrushLimit : Nat
  overcurrentThreshold : Nat
  overcurrentTime : Nat
  openLoadThreshold : Nat
  openLoadTime : Nat
  stuckWindow : Nat
  flowWarn : Nat
  flowShutdown : Nat
  flowHysteresis : Nat
  retryTime : Nat
deriving DecidableEq, Repr

/-- The mode setting of a loop (R1), in code order. -/
inductive LoopMode where
  | off
  | run
  | follow
deriving DecidableEq, Repr

/-- The seven settings of a loop (R1). -/
structure LoopSettings where
  mode : LoopMode
  weight : Nat
  designSpread : Nat
  topUpEligible : Bool
  returnSensorPresent : Bool
  stuckClosedCheck : Bool
  stuckOpenCheck : Bool
deriving DecidableEq, Repr

/-- The settings of a room (R8): its loop list, ascending, and its fallback demand. -/
structure RoomSettings where
  loops : List LoopNo
  fallback : Nat
deriving DecidableEq, Repr

/-- The response modes (9.1), in code order. -/
inductive ResponseMode where
  | latch
  | retry
  | report
  | ignore
deriving DecidableEq, Repr

/-- The safe positions (9.1), in code order; NONE where the subject is not a loop. -/
inductive SafePosition where
  | closed
  | opened
  | planned
  | none
deriving DecidableEq, Repr

/-- One record of FAULT RESPONSES (R140). -/
structure FaultResponse where
  mode : ResponseMode
  position : SafePosition
deriving DecidableEq, Repr

/-- The six settings tables (2.3). -/
structure Settings where
  general : General
  loops : Tab 24 LoopSettings
  rooms : Tab 16 RoomSettings
  conversion : Tab 17 Int
  routes : Tab 10 MasterSet
  responses : Tab 12 FaultResponse
deriving DecidableEq, Repr

/-- What a save copies and the stored image holds: the settings with k and D of every loop (R30, R32). -/
structure ImageContent where
  settings : Settings
  factors : Tab 24 Nat
  deadTimes : Tab 24 Nat
deriving DecidableEq, Repr

/-- The stored image (R30). `formatMark` says that the mark is that of the JH2412. -/
structure Image where
  content : ImageContent
  formatMark : Bool
  check : BitVec 16
  completionMark : Bool
deriving DecidableEq, Repr

/-- The kind of a save (R25, R35). -/
inductive SaveKind where
  | manual
  | auto
deriving DecidableEq, Repr

/-- A save in flight: its kind, the frame counter noted at its snapshot, and the snapshot (R32). -/
structure Save where
  kind : SaveKind
  frame : FrameNo
  snapshot : ImageContent
deriving DecidableEq, Repr

/-- The outcome of the last save to complete since the full reset (R25). -/
inductive SaveResult where
  | none
  | ok
  | failed
deriving DecidableEq, Repr

/-- The settings store (2.3 to 2.5). -/
structure Store where
  staged : Settings
  inForce : Settings
  image : Image
  save : Option Save
  lastResult : SaveResult
  lastKind : Option SaveKind
  lastFrame : FrameNo
  learnedChanged : Bool
  autosaveCount : Nat
  autosavePostponed : Bool
  loadValid : Bool
deriving DecidableEq, Repr

/-- The timebase: slot number, frame counter, and a RESET PLAN waiting for its boundary (R21, R22). -/
structure Clock where
  slot : Fin 48
  frame : FrameNo
  resetPlan : Bool
deriving DecidableEq, Repr

/-- Whether the part runs, is held in reset, or is between the end of a RESTART reply and its full reset (R36). -/
inductive RunMode where
  | running
  | held
deriving DecidableEq, Repr

/-! ### Temperature inputs (03) -/

/-- What a channel hands to its users for the slot just ended (R48, R49). -/
inductive SlotResult where
  | valid (temperature : Int)
  | stale
  | none
  | absent
  | substituted (temperature : Int)
deriving DecidableEq, Repr

/-- One thermistor channel (R39). Its sensor-fault condition stands in its condition record (R46). -/
structure Sensor where
  lastCode : BitVec 12
  lastValid : Option Int
  stale : Bool
  invalidRun : Nat
  validRun : Nat
  result : SlotResult
deriving DecidableEq, Repr

/-! ### Rooms, pins and duty (01, 04) -/

/-- The demand state of a room (4.1). -/
inductive DemandState where
  | none
  | fresh
  | stale
deriving DecidableEq, Repr

/-- The part of a room record that is not a setting (R8). -/
structure Room where
  posted : Nat
  state : DemandState
  age : Nat
  heat : Nat
deriving DecidableEq, Repr

/-- A pin record (R12). -/
structure Pin where
  isSet : Bool
  loops : List LoopNo
  start : Nat
  length : Nat
deriving DecidableEq, Repr

/-- Where a demand in use comes from (R56). -/
inductive Origin where
  | posted
  | fallback
  | none
deriving DecidableEq, Repr

/-- What the duty calculator keeps for a loop (R56 to R62). -/
structure Duty where
  demand : Nat
  origin : Origin
  rho : Nat
  carry : Nat
  clipped : Nat
deriving DecidableEq, Repr

/-- The effective mode of a loop (R5), in the order of the LOOP STATE record. -/
inductive EffMode where
  | off
  | single
  | leader
  | following
deriving DecidableEq, Repr

/-! ### The frame plan (05) -/

/-- The kind of a run (R69). -/
inductive RunKind where
  | none
  | pinned
  | ordinary
  | exercise
  | topUp
deriving DecidableEq, Repr

/-- Why a run ends where it does (R69). -/
inductive EndCause where
  | asPlaced
  | trimmed
  | removed
  | fault
  | sourceOff
deriving DecidableEq, Repr

/-- A run record (R69, R92). `removed` says that the run was removed before it began and covers no slot, whatever its end cause (R84, R88,
R89); `pin` is the pin a PINNED run was placed for, which the trim order of R84 reads. -/
structure Run where
  kind : RunKind
  first : Nat
  last : Nat
  continuation : Bool
  sequence : Nat
  endCause : EndCause
  placedLength : Nat
  removed : Bool
  pin : Nat
deriving DecidableEq, Repr

/-- The placement flags (R76, R78). -/
structure PlacementFlags where
  deferred : Bool
  shortened : Bool
  overweight : Bool
  demoted : Bool
deriving DecidableEq, Repr

/-- What the planner keeps for a loop. `released` says that a CLOSED or OPEN hold of the loop was released in this frame (R86). -/
structure LoopPlan where
  run : Run
  flags : PlacementFlags
  idleFrames : Nat
  released : Bool
deriving DecidableEq, Repr

/-- A per-slot record of the plan (R70): bit `i` of `openSet` stands for loop `i`. -/
structure SlotPlan where
  weight : Nat
  starts : Nat
  short : Bool
  openSet : BitVec 24
deriving DecidableEq, Repr

/-- What the planner keeps for the part: the ring pointer (R80), how many runs this frame has placed (R69), the short-slot count (R81). -/
structure Planner where
  ring : LoopNo
  sequence : Nat
  shortCount : Nat
deriving DecidableEq, Repr

/-! ### Balance (06) -/

/-- An armed dead-time measurement (R99): R0, slots since start, and the frame and slot of its start (R101). -/
structure Measurement where
  startReturn : Int
  slots : Nat
  frame : FrameNo
  slot : Fin 48
deriving DecidableEq, Repr

/-- A capture record (R101). -/
structure Capture where
  full : Bool
  measured : Nat
  frame : FrameNo
  slot : Fin 48
  startReturn : Int
deriving DecidableEq, Repr

/-- The outcome of a frame-end update (R104), in the order of R108. -/
inductive BalanceOutcome where
  | updated
  | tooFew
  | relearned
  | held
  | notLeader
deriving DecidableEq, Repr

/-- A last-frame report (R108). -/
structure Report where
  frame : FrameNo
  outcome : BalanceOutcome
  sum : Nat
  count : Nat
  average : Nat
  heat : Nat
  before : Nat
  after : Nat
deriving DecidableEq, Repr

/-- What the balance unit keeps for a loop: S and n (R96), the running heat count (R98), the relearned mark (R107), dead slots remaining
(R95), the measurement (R99), D and k (R3), the LIMIT flags (R106), the capture record (R101) and the last-frame report (R108). -/
structure Balance where
  sum : Nat
  count : Nat
  heat : Nat
  relearned : Bool
  deadSlots : Nat
  measurement : Option Measurement
  deadTime : Nat
  factor : Nat
  limitHigh : Bool
  limitLow : Bool
  capture : Capture
  report : Report
deriving DecidableEq, Repr

/-- The heat totals of the last frame end, with the frame they belong to (R109). -/
structure HeatTotals where
  frame : FrameNo
  manifoldA : Nat
  manifoldB : Nat
  house : Nat
deriving DecidableEq, Repr

/-! ### Actuator channels (07) -/

/-- The state of a channel (R112). -/
inductive ChannelState where
  | idle
  | pending
  | boost
  | hold
  | safeOpen
  | blocked
deriving DecidableEq, Repr

/-- The drive phase of a channel (R112). -/
inductive DrivePhase where
  | none
  | boost
  | hold
deriving DecidableEq, Repr

/-- A block cause (R112). -/
inductive BlockCause where
  | fault
  | shutdown
  | supply
deriving DecidableEq, Repr

/-- A set of block causes (R112). -/
structure BlockCauses where
  fault : Bool
  shutdown : Bool
  supply : Bool
deriving DecidableEq, Repr

/-- What a PENDING channel waits for (R119). -/
inductive PendingFor where
  | restart
  | safeOpen
deriving DecidableEq, Repr

/-- An actuator channel (7, first table). `onTime` is the on-time, in ms, of its switch in the drive period in progress, and `cut` says that
R115 has turned the switch off for the rest of it. `inSlot` and `inFrame` say that the channel was energised at some time in the slot or frame
in progress (R147, R72). -/
structure Channel where
  state : ChannelState
  phase : DrivePhase
  causes : BlockCauses
  pendingFor : PendingFor
  boostElapsed : Nat
  limited : Nat
  overcurrentTime : Nat
  openLoadTime : Nat
  recoveryTime : Nat
  onTime : Nat
  cut : Bool
  inSlot : Bool
  inFrame : Bool
deriving DecidableEq, Repr

/-- The actuator supply state (R120) and the starts taken at the start of the slot in progress, by the plan and by the arbiter (R118). -/
structure Supply where
  low : Bool
  planStarts : Nat
  extraStarts : Nat
deriving DecidableEq, Repr

/-! ### Supervision (09) -/

/-- The fault classes whose subject is a manifold, in class order 5..7 (R140). -/
inductive ManifoldClass where
  | flowSensor
  | flowWarn
  | flowShutdown
deriving DecidableEq, Repr

/-- The fault classes whose subject is the part: 8, 10 and 11 (R140). -/
inductive PartClass where
  | supplyLow
  | sourceSilent
  | storeInvalid
deriving DecidableEq, Repr

/-- A pairing of a class with a subject of its kind (R142): 145 in all. -/
inductive CondKey where
  | loop (cls : LoopClass) (loop : LoopNo)
  | manifold (cls : ManifoldClass) (manifold : Manifold)
  | room (room : Fin 16)
  | part (cls : PartClass)
deriving DecidableEq, Repr

/-- The hold of a condition record (R142). -/
inductive Hold where
  | none
  | latch
  | retry
deriving DecidableEq, Repr

/-- A condition record (R142). Whether it is listed is whether the fault list has its entry. `position` is the hold's position. -/
structure CondRecord where
  present : Bool
  hold : Hold
  position : SafePosition
  retrySlots : Nat
deriving DecidableEq, Repr

/-- The 145 condition records (R142). -/
structure Conditions where
  loops : Tab 24 (Tab 5 CondRecord)
  manifolds : Tab 2 (Tab 3 CondRecord)
  rooms : Tab 16 CondRecord
  parts : Tab 3 CondRecord
deriving DecidableEq, Repr

/-- The state of a listed entry, which follows its record (R144). -/
inductive EntryState where
  | active
  | waiting
  | held
  | past
deriving DecidableEq, Repr

/-- A fault entry (R150), without its state. -/
structure FaultEntry where
  key : CondKey
  firstFrame : FrameNo
  firstSlot : Fin 48
  lastFrame : FrameNo
  count : Nat
deriving DecidableEq, Repr

/-- The fault list and its OVERFLOW flag (R150). -/
structure FaultList where
  entries : List FaultEntry
  overflow : Bool
deriving DecidableEq, Repr

/-- An armed stuck-closed check (R146). -/
structure StuckCheck where
  startReturn : Int
  startFlow : Int
  slots : Nat
deriving DecidableEq, Repr

/-- What the supervisor keeps for a loop beside its condition records (R146, R147). -/
structure Watch where
  check : Option StuckCheck
  openCount : Nat
deriving DecidableEq, Repr

/-! ### Source coordination (08) -/

/-- The states the heat-source controller can post (R128). -/
inductive SourceState where
  | heat
  | dhw
  | defrost
  | off
deriving DecidableEq, Repr

/-- The source view in force (R132), in the order of R137. -/
inductive View where
  | heat
  | dhw
  | defrost
  | off
  | fallback
deriving DecidableEq, Repr

/-- The limits in force in a slot (R132, R64): ceiling, whether the floor applies, the floor, and the low and high limit of the flow
request. The floor is 0 where it does not apply. -/
structure Limits where
  ceiling : Nat
  floorApplies : Bool
  floor : Nat
  flowLow : Nat
  flowHigh : Nat
deriving DecidableEq, Repr

/-- The source coordinator (8, first table). `freshTemp` is the posted flow temperature of the slot in progress, where it is fresh (R135). -/
structure Source where
  posted : Option SourceState
  ceiling : Nat
  floor : Nat
  defrostFloor : Nat
  flowMin : Nat
  flowMax : Nat
  flowTemp : Option Int
  age : Nat
  view : View
  limits : Limits
  freshTemp : Option Int
  settling : Bool
  settled : Nat
deriving DecidableEq, Repr

end Sys2Proof.Machine
end

