-- ==== Sys2Proof/Machine/Defaults.lean ====
section
/-! DEFINITION. The values a part takes when it starts from an invalid image, and the empty records of a full reset. -/

namespace Sys2Proof.Machine

open Sys2Proof

/-- The default GENERAL record (R24). -/
def defaultGeneral : General where
  slotLength := 20
  minRun := 3
  startBudget := 2
  exerciseInterval := 630
  balanceGain := 2
  flowStepUp := 5
  flowStepDown := 2
  headroom := 8
  floorCap := 450
  autoCeiling := 600
  autoFlowMin := 250
  autoFlowMax := 400
  demandTimeout := 4
  sourceTimeout := 6
  settleCount := 3
  boostTime := 60
  holdDuty := 60
  inrushLimit := 350
  overcurrentThreshold := 800
  overcurrentTime := 5
  openLoadThreshold := 15
  openLoadTime := 20
  stuckWindow := 9
  flowWarn := 500
  flowShutdown := 550
  flowHysteresis := 30
  retryTime := 48

/-- The default settings of a loop (R1). -/
def defaultLoop : LoopSettings where
  mode := .off
  weight := 10
  designSpread := 50
  topUpEligible := false
  returnSensorPresent := true
  stuckClosedCheck := true
  stuckOpenCheck := true

/-- The default settings of a room (R8). -/
def defaultRoom : RoomSettings := ⟨[], 25⟩

/-- The default conversion points T0..T16 (R43). -/
def defaultConversion : Tab 17 Int :=
  ⟨[950, 950, 843, 712, 620, 548, 487, 432, 380, 330, 279, 226, 168, 101, 15, -112, -300], rfl⟩

/-- The default routes of kinds 0..9 (R162). -/
def defaultRoutes : Tab 10 MasterSet :=
  ⟨[⟨false, true, false⟩, ⟨true, false, true⟩, ⟨false, true, false⟩, ⟨false, true, false⟩, ⟨true, false, false⟩,
    ⟨false, false, true⟩, ⟨true, false, true⟩, ⟨false, true, true⟩, ⟨false, false, true⟩, ⟨false, false, true⟩], rfl⟩

/-- The default fault responses of classes 0..11 (R140). -/
def defaultResponses : Tab 12 FaultResponse :=
  ⟨[⟨.latch, .closed⟩, ⟨.report, .planned⟩, ⟨.report, .planned⟩, ⟨.report, .planned⟩, ⟨.report, .planned⟩, ⟨.report, .none⟩,
    ⟨.report, .none⟩, ⟨.report, .none⟩, ⟨.report, .none⟩, ⟨.report, .none⟩, ⟨.report, .none⟩, ⟨.report, .none⟩], rfl⟩

/-- The defaults of the six settings tables (R31). -/
def defaultSettings : Settings where
  general := defaultGeneral
  loops := .fill 24 defaultLoop
  rooms := .fill 16 defaultRoom
  conversion := defaultConversion
  routes := defaultRoutes
  responses := defaultResponses

/-- What a part that starts from an invalid image has in force: the default settings, every k 256, every D 2 (R31). -/
def defaultContent : ImageContent := ⟨defaultSettings, .fill 24 256, .fill 24 2⟩

/-- The image of a part that has never completed a save (R30): invalid. Its content and check are a DESIGN CHOICE (log 6): they are never
loaded. -/
def blankImage : Image := ⟨defaultContent, false, 0, false⟩

/-- A port after a full reset (R157). -/
def freshPort : Port := ⟨.idle, [], false, none⟩

/-- The notice unit after a full reset (R167): STARTED pending, every kind enabled, no mail. -/
def freshNotices : Notices := ⟨0x400, 0xFFF, []⟩

/-- A thermistor channel after a full reset (R51). -/
def freshSensor : Sensor := ⟨0, none, false, 0, 0, .none⟩

/-- A room after a full reset (R18). -/
def freshRoom : Room := ⟨0, .none, 0, 0⟩

/-- A FREE pin (R12). -/
def freePin : Pin := ⟨false, [], 0, 0⟩

/-- The duty of a loop that is no RUN leader (R57). -/
def noDuty : Duty := ⟨0, .none, 0, 0, 0⟩

/-- The record of a loop that has had no run (R69). Its end cause is shown as AS PLACED (log 39). -/
def noRun : Run := ⟨.none, 0, 0, false, 0, .asPlaced, 0, false, 0⟩

/-- No placement flag. -/
def noFlags : PlacementFlags := ⟨false, false, false, false⟩

/-- The plan of a loop with no run, after a full reset (R93). -/
def freshPlan : LoopPlan := ⟨noRun, noFlags, 0, false⟩

/-- A per-slot record at the start of a placement (R73). -/
def emptySlot : SlotPlan := ⟨0, 0, false, 0⟩

/-- An empty capture record (R101). -/
def emptyCapture : Capture := ⟨false, 0, 0, 0, 0⟩

/-- The last-frame report after a full reset that loaded `factor` (R111). -/
def freshReport (factor : Nat) : Report := ⟨0, .tooFew, 0, 0, 0, 0, factor, factor⟩

/-- The balance unit's share of a loop after a full reset (R111). -/
def freshBalance (factor deadTime : Nat) : Balance :=
  ⟨0, 0, 0, false, 0, none, deadTime, factor, false, false, emptyCapture, freshReport factor⟩

/-- No block cause. -/
def noCauses : BlockCauses := ⟨false, false, false⟩

/-- A channel after a full reset with the supply NORMAL (R127). -/
def freshChannel : Channel := ⟨.idle, .none, noCauses, .restart, 0, 0, 0, 0, 0, 0, false, false, false⟩

/-- A condition record after a full reset (R153). -/
def freshRecord : CondRecord := ⟨false, .none, .none, 0⟩

/-- The condition records after a full reset that loaded a valid image (R153). -/
def freshConditions : Conditions :=
  ⟨.fill 24 (.fill 5 freshRecord), .fill 2 (.fill 3 freshRecord), .fill 16 freshRecord, .fill 3 freshRecord⟩

/-- The supervisor's share of a loop after a full reset (R153). -/
def freshWatch : Watch := ⟨none, 0⟩

/-- The entry of an image found invalid (R149). -/
def storeInvalidEntry : FaultEntry := ⟨.part .storeInvalid, 0, 0, 0, 1⟩

end Sys2Proof.Machine
end

