-- ==== Sys2Proof/Machine/State.lean ====
section
/-! DEFINITION. The state of the JH2412, the reasons a step could stop, and the state after reset. -/

namespace Sys2Proof.Machine

open Sys2Proof

/-- Everything the spec gives the part, block by block (INVENTORY.md, "State"), and two fields of the model: `draws`, the argument of the
free values of Config, and `pending`, the commands that wait, first in first out. -/
structure State where
  mode : RunMode
  restartPending : Bool
  ports : PerMaster Port
  notices : PerMaster Notices
  store : Store
  clock : Clock
  sensors : Tab 26 Sensor
  rooms : Tab 16 Room
  pins : Tab 6 Pin
  duty : Tab 24 Duty
  plans : Tab 24 LoopPlan
  slots : Tab 48 SlotPlan
  planner : Planner
  balance : Tab 24 Balance
  channels : Tab 24 Channel
  supply : Supply
  conds : Conditions
  faults : FaultList
  watch : Tab 24 Watch
  source : Source
  flowRequest : Nat
  heat : HeatTotals
  draws : Nat
  pending : List Instr
deriving DecidableEq, Repr

/-- Why the part could stop: never. No rule of the spec stops the part at a command: a request it does not take is answered with a status
(R156) and a fault of the installation is state (R142), so this type has no constructor. -/
inductive Fault where
deriving DecidableEq, Repr

/-- Why a command has no meaning. -/
inductive Refusal where
  /-- Raised by an arm of exec for a row that has no meaning yet (safe: the run stops). No arm uses it. -/
  | notModelled (mnemonic : String)
deriving DecidableEq, Repr

/-- The condition records after a full reset that found an invalid image: STORE_INVALID alone is present (R149). -/
def storeInvalidConditions : Conditions :=
  { freshConditions with parts := ⟨[freshRecord, freshRecord, { freshRecord with present := true }], rfl⟩ }

/-- The store after a full reset that found an invalid image (R31, R38). -/
def resetStore : Store where
  staged := defaultSettings
  inForce := defaultSettings
  image := blankImage
  save := none
  lastResult := .none
  lastKind := none
  lastFrame := 0
  learnedChanged := false
  autosaveCount := 0
  autosavePostponed := false
  loadValid := false

/-- The source coordinator after a full reset with the default GENERAL record (R138). -/
def resetSource : Source where
  posted := none
  ceiling := 600
  floor := 0
  defrostFloor := 0
  flowMin := 250
  flowMax := 400
  flowTemp := none
  age := 0
  view := .fallback
  limits := ⟨600, true, 0, 250, 400⟩
  freshTemp := none
  settling := false
  settled := 0

/-- The part right after a full reset that found an invalid image, with the actuator supply above 21.0 V (R36 to R38 and the reset tables of
every chapter; log 5, log 6): frame 0 has begun, and its placement, which finds every loop OFF, has placed nothing. -/
def State.reset : State where
  mode := .running
  restartPending := false
  ports := .all freshPort
  notices := .all freshNotices
  store := resetStore
  clock := ⟨0, 0, false⟩
  sensors := .fill 26 freshSensor
  rooms := .fill 16 freshRoom
  pins := .fill 6 freePin
  duty := .fill 24 noDuty
  plans := .fill 24 freshPlan
  slots := .fill 48 emptySlot
  planner := ⟨0, 0, 0⟩
  balance := .fill 24 (freshBalance 256 2)
  channels := .fill 24 freshChannel
  supply := ⟨false, 0, 0⟩
  conds := storeInvalidConditions
  faults := ⟨[storeInvalidEntry], false⟩
  watch := .fill 24 freshWatch
  source := resetSource
  flowRequest := 250
  heat := ⟨0, 0, 0, 0⟩
  draws := 0
  pending := []

end Sys2Proof.Machine
end

