-- ==== Sys2Proof/Machine/Ops.lean ====
section
/-! DEFINITION. The named operations every block shares: reading the settings and records, the effective modes (R5), weights (R6, R70), the
loop holds (R145), the view and its limits (R132), and the updates of one record of a table. -/

namespace Sys2Proof.Machine

open Sys2Proof

/-! ### Loops, pairs, manifolds -/

/-- The 24 loops in ascending order. -/
def allLoops : List LoopNo := List.finRange 24

/-- The 16 rooms in ascending order. -/
def allRooms : List (Fin 16) := List.finRange 16

/-- Whether a loop is the even one of its pair (1.2). -/
def isEven (l : LoopNo) : Bool := l.val % 2 == 0

/-- The other loop of a loop's pair (1.2). -/
def partner (l : LoopNo) : LoopNo :=
  if h : l.val % 2 = 0 then ⟨l.val + 1, by omega⟩ else ⟨l.val - 1, by omega⟩

/-- The manifold that carries a loop. -/
def manifoldOf (l : LoopNo) : Manifold := if l.val < 12 then .a else .b

/-- The thermistor channel of a loop's return (3, first table). -/
def returnChannel (l : LoopNo) : Fin 26 := ⟨l.val, by omega⟩

/-- The thermistor channel of a manifold's flow (3, first table). -/
def flowChannel : Manifold → Fin 26
  | .a => 24
  | .b => 25

/-- The loops of a manifold, ascending. -/
def loopsOf (m : Manifold) : List LoopNo := allLoops.filter (manifoldOf · == m)

/-! ### Settings in force -/

/-- The settings in force. -/
def State.inForce (s : State) : Settings := s.store.inForce

/-- The general record in force. -/
def State.general (s : State) : General := s.store.inForce.general

/-- A loop's settings in force. -/
def State.loopSettings (s : State) (l : LoopNo) : LoopSettings := s.store.inForce.loops.get l

/-- R5: the effective mode of a loop under given loop settings. An even loop in FOLLOW, which R2 does not let be, counts as RUN. -/
def effMode (loops : Tab 24 LoopSettings) (l : LoopNo) : EffMode :=
  let own := (loops.get l).mode
  let other := (loops.get (partner l)).mode
  if isEven l then
    match own with
    | .off => .off
    | _ => if other = .follow then .leader else .single
  else
    match own with
    | .off => .off
    | .run => .single
    | .follow => if other = .off then .off else .following

/-- R5: the effective mode of a loop in force. -/
def State.effMode (s : State) (l : LoopNo) : EffMode := Machine.effMode s.store.inForce.loops l

/-- R5: a RUN leader is SINGLE or LEADER. -/
def EffMode.runs : EffMode → Bool
  | .single => true
  | .leader => true
  | _ => false

/-- R5: whether a loop is a RUN leader. -/
def State.runLeader (s : State) (l : LoopNo) : Bool := (s.effMode l).runs

/-- The loop whose run a loop follows: its leader for a FOLLOWING loop, itself otherwise (R6). -/
def State.planLoop (s : State) (l : LoopNo) : LoopNo := if s.effMode l = .following then partner l else l

/-- A loop's own weight in force. -/
def State.weight (s : State) (l : LoopNo) : Nat := (s.loopSettings l).weight

/-- R6: the pair weight. R6 gives none to a loop that is OFF or FOLLOWING, which a SET pin can still list (R17): for R14 such a loop counts its own
weight, so a follower pinned beside its leader counts twice (log 27). -/
def State.pairWeight (s : State) (l : LoopNo) : Nat :=
  if s.effMode l = .leader then s.weight l + s.weight (partner l) else s.weight l

/-- R9: the room whose in-force list contains a loop. -/
def roomOf (rooms : Tab 16 RoomSettings) (l : LoopNo) : Option (Fin 16) :=
  allRooms.find? fun r => (rooms.get r).loops.contains l

/-! ### Condition records and loop holds -/

/-- The class number of a loop class (R140). -/
def loopClassNo : LoopClass → Fin 5
  | .driveOvercurrent => 0
  | .driveOpen => 1
  | .stuckClosed => 2
  | .stuckOpen => 3
  | .returnSensor => 4

/-- The place of a manifold class among the three. -/
def ManifoldClass.no : ManifoldClass → Fin 3
  | .flowSensor => 0
  | .flowWarn => 1
  | .flowShutdown => 2

/-- The place of a part class among the three. -/
def PartClass.no : PartClass → Fin 3
  | .supplyLow => 0
  | .sourceSilent => 1
  | .storeInvalid => 2

/-- The number of a manifold (R150). -/
def Manifold.no : Manifold → Fin 2
  | .a => 0
  | .b => 1

/-- The class number of a record (R140). -/
def CondKey.classNo : CondKey → Fin 12
  | .loop c _ => ⟨(loopClassNo c).val, by omega⟩
  | .manifold c _ => ⟨5 + c.no.val, by omega⟩
  | .room _ => 9
  | .part .supplyLow => 8
  | .part .sourceSilent => 10
  | .part .storeInvalid => 11

/-- The subject number of a record (R150). -/
def CondKey.subjectNo : CondKey → Nat
  | .loop _ l => l.val
  | .manifold _ m => m.no.val
  | .room r => r.val
  | .part _ => 0

/-- The condition record of a class and subject (R142). -/
def Conditions.get (c : Conditions) : CondKey → CondRecord
  | .loop k l => (c.loops.get l).get (loopClassNo k)
  | .manifold k m => (c.manifolds.get m.no).get k.no
  | .room r => c.rooms.get r
  | .part k => c.parts.get k.no

/-- The condition record of a class and subject replaced. -/
def Conditions.set (c : Conditions) (key : CondKey) (r : CondRecord) : Conditions :=
  match key with
  | .loop k l => { c with loops := c.loops.modify l (·.set (loopClassNo k) r) }
  | .manifold k m => { c with manifolds := c.manifolds.modify m.no (·.set k.no r) }
  | .room n => { c with rooms := c.rooms.set n r }
  | .part k => { c with parts := c.parts.set k.no r }

/-- A condition record of the supervisor. -/
def State.record (s : State) (key : CondKey) : CondRecord := s.conds.get key

/-- Whether a condition is present. -/
def State.present (s : State) (key : CondKey) : Bool := (s.conds.get key).present

/-- A condition record of the supervisor replaced. -/
def State.setRecord (s : State) (key : CondKey) (r : CondRecord) : State := { s with conds := s.conds.set key r }

/-- The strength of a hold's position (R145): CLOSED, then OPEN, then PLANNED. -/
def SafePosition.strength : SafePosition → Nat
  | .closed => 3
  | .opened => 2
  | .planned => 1
  | .none => 0

/-- The stronger of two positions (R145). -/
def SafePosition.stronger (a b : SafePosition) : SafePosition := if a.strength < b.strength then b else a

/-- The position a record holds: NONE when it has no hold (R142). -/
def CondRecord.holds (r : CondRecord) : SafePosition := if r.hold = .none then .none else r.position

/-- The positions that a loop's own five records hold (R145). -/
def ownPositions (c : Conditions) (l : LoopNo) : List SafePosition := (c.loops.get l).cells.map CondRecord.holds

/-- R145: the hold of a loop: the strongest of the holds of its own records and, for a FOLLOWING loop, of its leader's; an OPEN hold does not
reach an OFF loop. -/
def loopHold (loops : Tab 24 LoopSettings) (c : Conditions) (l : LoopNo) : SafePosition :=
  let mode := effMode loops l
  let reach := ownPositions c l ++ (if mode = .following then ownPositions c (partner l) else [])
  let reach := if mode = .off then reach.filter (· != .opened) else reach
  reach.foldl SafePosition.stronger .none

/-- R145: the hold of a loop now. -/
def State.hold (s : State) (l : LoopNo) : SafePosition := loopHold s.store.inForce.loops s.conds l

/-- A CLOSED or OPEN position takes a loop off the plan (R73). -/
def SafePosition.holdsOut : SafePosition → Bool
  | .closed => true
  | .opened => true
  | _ => false

/-- R70: whether the run of a RUN leader drives its follower too: a pair whose follower is free of CLOSED and OPEN holds. -/
def State.drivesFollower (s : State) (l : LoopNo) : Bool := s.effMode l == .leader && !(s.hold (partner l)).holdsOut

/-- R70: the run weight of a loop's run. -/
def State.runWeight (s : State) (l : LoopNo) : Nat :=
  if s.drivesFollower l then s.weight l + s.weight (partner l) else s.weight l

/-- R70: how many channels a loop's run starts. -/
def State.runStarts (s : State) (l : LoopNo) : Nat := if s.drivesFollower l then 2 else 1

/-! ### Sensor results -/

/-- R48: the temperature a result hands on. -/
def SlotResult.reading : SlotResult → Option Int
  | .valid t => some t
  | .substituted t => some t
  | _ => Option.none

/-- The temperature of a VALID result. -/
def SlotResult.validReading : SlotResult → Option Int
  | .valid t => some t
  | _ => Option.none

/-- A loop's return, where its result is VALID (R96, R99, R146, R147). -/
def State.returnReading (s : State) (l : LoopNo) : Option Int := (s.sensors.get (returnChannel l)).result.validReading

/-- A manifold's flow, where its result is VALID or SUBSTITUTED (R96, R148). -/
def State.flowReading (s : State) (m : Manifold) : Option Int := (s.sensors.get (flowChannel m)).result.reading

/-- The condition record of a thermistor channel (R46). -/
def sensorKey (ch : Fin 26) : CondKey :=
  if h : ch.val < 24 then .loop .returnSensor ⟨ch.val, h⟩ else .manifold .flowSensor (if ch.val = 24 then .a else .b)

/-! ### Channels -/

/-- R112: a channel is energised while its drive phase is BOOST or HOLD. -/
def Channel.energised (c : Channel) : Bool := c.phase != .none

/-- R112: whether a loop's channel is energised. -/
def State.energised (s : State) (l : LoopNo) : Bool := (s.channels.get l).energised

/-! ### The source view and its limits -/

/-- R64: the low and high limit of the flow request from the flow minimum and maximum used and the floor cap. -/
def flowLimits (floorCap flowMin flowMax : Nat) : Nat × Nat :=
  let high := min flowMax floorCap
  (min flowMin high, high)

/-- R132: the limits a view brings. -/
def limitsOf (g : General) (src : Source) (view : View) : Limits :=
  let flow := match view with
    | .fallback => flowLimits g.floorCap g.autoFlowMin g.autoFlowMax
    | _ => flowLimits g.floorCap src.flowMin src.flowMax
  match view with
  | .heat => ⟨src.ceiling, true, src.floor, flow.1, flow.2⟩
  | .fallback => ⟨g.autoCeiling, true, 0, flow.1, flow.2⟩
  | .defrost => ⟨src.ceiling, true, min (max src.floor src.defrostFloor) src.ceiling, flow.1, flow.2⟩
  | .dhw => ⟨src.ceiling, false, 0, flow.1, flow.2⟩
  | .off => ⟨src.ceiling, false, 0, flow.1, flow.2⟩

/-- The view of a posted state. -/
def SourceState.view : SourceState → View
  | .heat => .heat
  | .dhw => .dhw
  | .defrost => .defrost
  | .off => .off

/-- R132: the view that the next slot start puts in force, as the posted values and SOURCE_SILENT stand. -/
def State.nextView (s : State) : View :=
  if s.present (.part .sourceSilent) then .fallback
  else match s.source.posted with
    | none => .fallback
    | some p => p.view

/-- R132: the limits that the next slot start puts in force. -/
def State.nextLimits (s : State) : Limits := limitsOf s.general s.source s.nextView

/-- Views in which the floor is heated (R136, R96). -/
def View.heating : View → Bool
  | .heat => true
  | .fallback => true
  | _ => false

/-! ### Updates of one record -/

/-- A change of one loop's duty. -/
def State.onDuty (s : State) (l : LoopNo) (f : Duty → Duty) : State := { s with duty := s.duty.modify l f }

/-- A change of one loop's plan. -/
def State.onPlan (s : State) (l : LoopNo) (f : LoopPlan → LoopPlan) : State := { s with plans := s.plans.modify l f }

/-- A change of one loop's run. -/
def State.onRun (s : State) (l : LoopNo) (f : Run → Run) : State := s.onPlan l fun p => { p with run := f p.run }

/-- A change of one loop's placement flags. -/
def State.onFlags (s : State) (l : LoopNo) (f : PlacementFlags → PlacementFlags) : State :=
  s.onPlan l fun p => { p with flags := f p.flags }

/-- A change of one loop's balance. -/
def State.onBalance (s : State) (l : LoopNo) (f : Balance → Balance) : State := { s with balance := s.balance.modify l f }

/-- A change of one loop's channel. -/
def State.onChannel (s : State) (l : LoopNo) (f : Channel → Channel) : State := { s with channels := s.channels.modify l f }

/-- A change of one loop's watch. -/
def State.onWatch (s : State) (l : LoopNo) (f : Watch → Watch) : State := { s with watch := s.watch.modify l f }

/-- A change of one room. -/
def State.onRoom (s : State) (r : Fin 16) (f : Room → Room) : State := { s with rooms := s.rooms.modify r f }

/-- A change of the settings store. -/
def State.onStore (s : State) (f : Store → Store) : State := { s with store := f s.store }

/-- The learned-changed flag set (R34). -/
def State.learned (s : State) : State := s.onStore fun st => { st with learnedChanged := true }

/-- The run of a loop. -/
def State.run (s : State) (l : LoopNo) : Run := (s.plans.get l).run

end Sys2Proof.Machine
end

