-- ==== Sys2Proof/Machine/Flags.lean ====
section
/-! DEFINITION. The notice flags: kinds, routes, raises and the attention lines (11). -/

namespace Sys2Proof.Machine

open Sys2Proof

/-- The notice kinds, in the order of their numbers (11.1). -/
inductive Kind where
  | frame
  | fault
  | flowShort
  | flowRequest
  | pinDemoted
  | capture
  | roomFallback
  | sourceFallback
  | adopted
  | saveDone
  | started
  | mail
deriving DecidableEq, Repr

/-- The bit of a kind (10.5). -/
def Kind.bit : Kind → KindSet
  | .frame => 0x001
  | .fault => 0x002
  | .flowShort => 0x004
  | .flowRequest => 0x008
  | .pinDemoted => 0x010
  | .capture => 0x020
  | .roomFallback => 0x040
  | .sourceFallback => 0x080
  | .adopted => 0x100
  | .saveDone => 0x200
  | .started => 0x400
  | .mail => 0x800

/-- R162: the route of a kind under given routes. STARTED goes to every master; MAIL has no route. -/
def Kind.route (routes : Tab 10 MasterSet) : Kind → MasterSet
  | .frame => routes.get 0
  | .fault => routes.get 1
  | .flowShort => routes.get 2
  | .flowRequest => routes.get 3
  | .pinDemoted => routes.get 4
  | .capture => routes.get 5
  | .roomFallback => routes.get 6
  | .sourceFallback => routes.get 7
  | .adopted => routes.get 8
  | .saveDone => routes.get 9
  | .started => ⟨true, true, true⟩
  | .mail => ⟨false, false, false⟩

/-- Whether a set of masters holds one. -/
def MasterSet.has (m : MasterSet) : Master → Bool
  | .room => m.room
  | .source => m.source
  | .service => m.service

/-- A kind added to a master's pending set where it is in the route. -/
def Notices.add (n : Notices) (routed : Bool) (k : Kind) : Notices :=
  if routed then { n with pending := n.pending ||| k.bit } else n

/-- R161: a kind raised, to every master of its route in force at that moment. -/
def State.raise (k : Kind) (s : State) : State :=
  let route := k.route s.store.inForce.routes
  { s with notices := ⟨s.notices.room.add route.room k, s.notices.source.add route.source k, s.notices.service.add route.service k⟩ }

/-- A kind raised where a condition holds. -/
def State.raiseIf (c : Bool) (k : Kind) (s : State) : State := if c then s.raise k else s

/-- R164: a master's attention line is asserted exactly when its pending and enable sets meet; in reset it is released (R36). -/
def State.attention (s : State) (m : Master) : Bool :=
  s.mode == .running && ((s.notices.get m).pending &&& (s.notices.get m).enabled) != 0

end Sys2Proof.Machine
end

