-- ==== Sys2Proof/Machine/Faults.lean ====
section
/-! DEFINITION. Condition records and the fault list (09): what a record and its entry do when a condition becomes present or ends, and when a
hold is released. What a changed hold does to the channels and the plan is in Machine/Supervisor.lean. -/

namespace Sys2Proof.Machine

open Sys2Proof

/-- R144: the state of a listed entry, from its record. -/
def CondRecord.entryState (r : CondRecord) : EntryState :=
  if r.present then .active else match r.hold with
    | .retry => .waiting
    | .latch => .held
    | .none => .past

/-- R142: whether a record has an entry in the fault list. -/
def State.listed (s : State) (key : CondKey) : Bool := s.faults.entries.any (·.key == key)

/-- The response in force for a record's class (R140). -/
def State.response (s : State) (key : CondKey) : FaultResponse := s.store.inForce.responses.get key.classNo

/-- R143, recurrence: count increased by one, saturating at 255; last frame becomes the frame counter. -/
def recur (frame : FrameNo) (key : CondKey) (e : FaultEntry) : FaultEntry :=
  if e.key = key then { e with count := min (e.count + 1) 255, lastFrame := frame } else e

/-- R143, first: the condition is listed by the mode in force: a recurrence, a new entry at the tail, or OVERFLOW. FAULT is raised when an
entry is created and when OVERFLOW becomes set. -/
def State.enlist (s : State) (key : CondKey) (mode : ResponseMode) : State :=
  if mode = .ignore then s
  else if s.listed key then { s with faults := { s.faults with entries := s.faults.entries.map (recur s.clock.frame key) } }
  else if s.faults.entries.length < 32 then
    State.raise .fault
      { s with faults := { s.faults with entries := s.faults.entries ++ [⟨key, s.clock.frame, s.clock.slot, s.clock.frame, 1⟩] } }
  else if s.faults.overflow then s
  else State.raise .fault { s with faults := { s.faults with overflow := true } }

/-- R150, R162: a record listed as another state has it: under that state's mode and routes, with its frame and slot. -/
def State.enlistAsOf (s was : State) (key : CondKey) : State :=
  let t := ({ s with clock := was.clock, store := was.store } : State).enlist key (was.response key).mode
  { s with faults := t.faults, notices := t.notices }

/-- A record replaced; FAULT is raised if it is listed and its entry's state changes (R143, third; R144). -/
def State.putRecord (s : State) (key : CondKey) (r : CondRecord) : State :=
  (s.setRecord key r).raiseIf (s.listed key && (s.record key).entryState != r.entryState) .fault

/-- R143, second: a mode under which a response holds, or renews a hold that stands. -/
def ResponseMode.holds : ResponseMode → Bool
  | .latch => true
  | .retry => true
  | .report => false
  | .ignore => false

/-- The hold that a holding mode takes (R143). -/
def ResponseMode.hold : ResponseMode → Hold
  | .latch => .latch
  | .retry => .retry
  | .report => .none
  | .ignore => .none

/-- R143, second: a record whose condition has become present, after the response in force is applied. Under REPORT and IGNORE a standing hold stays
as it is, the elapsed slots of a RETRY hold too, also where that hold's expiry falls to the same slot end (log 37). -/
def CondRecord.apply (r : CondRecord) (resp : FaultResponse) : CondRecord :=
  if resp.mode.holds then
    match r.hold with
    | .latch => { r with present := true }
    | .retry => { r with present := true, retrySlots := 0 }
    | .none => ⟨true, resp.mode.hold, resp.position, 0⟩
  else { r with present := true }

/-- R143: a condition becomes present: it is listed, then the response is applied to its record. -/
def State.conditionPresent (s : State) (key : CondKey) : State :=
  let resp := s.response key
  (s.enlist key resp.mode).putRecord key ((s.record key).apply resp)

/-- R144: a condition ends: the record's condition becomes absent and its hold stays. -/
def State.conditionEnd (s : State) (key : CondKey) : State :=
  if s.present key then s.putRecord key { s.record key with present := false } else s

/-- R144: a record whose RETRY hold is applied anew at its expiry, under the response then in force. -/
def CondRecord.renew (r : CondRecord) (resp : FaultResponse) : CondRecord :=
  match resp.mode with
  | .latch => { r with hold := .latch, position := resp.position, retrySlots := 0 }
  | .retry => { r with hold := .retry, position := resp.position, retrySlots := 0 }
  | _ => { r with hold := .none, retrySlots := 0 }

/-- R144: a RETRY hold at its retry time: released where the condition is absent, applied anew as a recurrence where it is present. A record that is not
listed, as one that met a full list, is tried for an entry again then (log 34). -/
def State.retryExpire (s : State) (key : CondKey) : State :=
  let r := s.record key
  if r.present then (s.enlist key (s.response key).mode).putRecord key (r.renew (s.response key))
  else s.putRecord key { r with hold := .none, retrySlots := 0 }

/-- R144: whether a record's RETRY hold has reached the retry time in force. -/
def State.retryDue (s : State) (key : CondKey) : Bool :=
  (s.record key).hold == .retry && decide (s.general.retryTime ≤ (s.record key).retrySlots)

/-- R144: the retry slots elapsed of every RETRY hold grow by one at a slot end. -/
def State.growRetries (s : State) : State :=
  { s with conds := { s.conds with loops := s.conds.loops.map fun t => t.map fun r =>
      if r.hold = .retry then { r with retrySlots := min (r.retrySlots + 1) 240 } else r } }

/-- R151: an entry removed: the entries after it move up. -/
def State.delist (s : State) (key : CondKey) : State :=
  { s with faults := { s.faults with entries := s.faults.entries.filter (·.key != key) } }

/-- The class and subject keys of the five loop classes, in class order and then loop order (R150). -/
def loopKeys : List CondKey :=
  [LoopClass.driveOvercurrent, .driveOpen, .stuckClosed, .stuckOpen, .returnSensor].flatMap fun c => allLoops.map (CondKey.loop c)

/-- All 145 keys in class order and then subject order (R142, R150). -/
def allKeys : List CondKey :=
  loopKeys ++ [CondKey.manifold .flowSensor .a, .manifold .flowSensor .b, .manifold .flowWarn .a, .manifold .flowWarn .b,
    .manifold .flowShutdown .a, .manifold .flowShutdown .b, .part .supplyLow] ++ allRooms.map CondKey.room
    ++ [.part .sourceSilent, .part .storeInvalid]

/-- The key that a class number and a subject number name, where they lie in range (R150, R151). -/
def keyOf (cls subject : Nat) : Option CondKey :=
  allKeys.find? fun k => k.classNo.val == cls && k.subjectNo == subject

end Sys2Proof.Machine
end

