-- ==== Sys2Proof/Machine/Planner.lean ====
section
/-! DEFINITION. The frame planner (05): the per-slot records from the runs and holds (R70, R83), placement at a frame start (R73 to R81), and the
corrections within a frame (R82 to R90). -/

namespace Sys2Proof.Machine

open Sys2Proof

/-! ### Per-slot records -/

/-- R69: whether a run covers a slot. A removed run covers none. -/
def Run.covers (r : Run) (t : Nat) : Bool := r.kind != .none && !r.removed && decide (r.first ≤ t) && decide (t ≤ r.last)

/-- R69: how many slots a run covers. -/
def Run.length (r : Run) : Nat := if r.kind = .none || r.removed then 0 else r.last + 1 - r.first

/-- The per-slot record of a slot, by number. -/
def State.slotPlan (s : State) (t : Nat) : SlotPlan := if h : t < 48 then s.slots.get ⟨t, h⟩ else emptySlot

/-- R83: W of a slot: the run weight of every run that covers it and the weight of every loop held open. -/
def State.openWeight (s : State) (t : Nat) : Nat :=
  allLoops.foldl (fun w l =>
    w + (if (s.run l).covers t then s.runWeight l else 0) + (if s.hold l = .opened then s.weight l else 0)) 0

/-- R70, R83: the plan starts of a slot: the runs that begin there and are not continuations, each with its c. -/
def State.planStartsAt (s : State) (t : Nat) : Nat :=
  allLoops.foldl (fun n l =>
    n + (if (s.run l).covers t && (s.run l).first == t && !(s.run l).continuation then s.runStarts l else 0)) 0

/-- R70: whether the plan has a loop open in a slot: by its run, by its leader's run, or held open. -/
def State.openIn (s : State) (t : Nat) (l : LoopNo) : Bool :=
  (s.run l).covers t || (s.effMode l == .following && (s.run (partner l)).covers t && s.drivesFollower (partner l))
    || s.hold l == .opened

/-- R70: the open set of a slot. -/
def State.openLoops (s : State) (t : Nat) : BitVec 24 :=
  BitVec.ofNat 24 (allLoops.foldl (fun n l => n + (if s.openIn t l then 2 ^ l.val else 0)) 0)

/-- R83: W, starts and open sets of the slots from `start` on, recomputed from the runs and holds. Slots before it stand (R70). -/
def State.replan (s : State) (start : Nat) : State :=
  { s with slots := Tab.ofFn fun t =>
      if t.val < start then s.slots.get t
      else { s.slots.get t with weight := s.openWeight t.val, starts := s.planStartsAt t.val, openSet := s.openLoops t.val } }

/-- R81: the SHORT fields of the slots from `start` on: W below the floor, where the floor applies. -/
def State.markShort (s : State) (start : Nat) (lim : Limits) : State :=
  { s with slots := Tab.ofFn fun t =>
      if t.val < start then s.slots.get t
      else { s.slots.get t with short := lim.floorApplies && decide ((s.slots.get t).weight < lim.floor) } }

/-- R81: the number of SHORT slots of the frame. -/
def State.countShort (s : State) : Nat := s.slots.cells.countP (·.short)

/-- R81: the short-slot count handed to the source coordinator. -/
def State.publishShort (s : State) : State := { s with planner := { s.planner with shortCount := s.countShort } }

/-- Whether some slot is SHORT now that was not SHORT before. -/
def newlyShort (before after : Tab 48 SlotPlan) : Bool :=
  (before.cells.zip after.cells).any fun p => p.2.short && !p.1.short

/-- R87: the SHORT fields of the slots from `start` on are re-evaluated, the count is published, and FLOW_SHORT is raised if a field that was
clear is now set. `before` holds the fields as they were before the correction. -/
def State.reevaluateShort (s : State) (before : Tab 48 SlotPlan) (start : Nat) (lim : Limits) : State :=
  let t := s.markShort start lim
  t.publishShort.raiseIf (newlyShort before t.slots) .flowShort

/-! ### Placing one run -/

/-- The slots `start, start + 1, ...`, `len` of them. -/
def span (start len : Nat) : List Nat := (List.range len).map (start + ·)

/-- R77: whether W plus `weight` stays within the ceiling on every slot of a stretch. -/
def State.fitsUnder (s : State) (ceiling weight start len : Nat) : Bool :=
  (span start len).all fun t => decide ((s.slotPlan t).weight + weight ≤ ceiling)

/-- R77: the largest W of a stretch. -/
def State.peak (s : State) (start len : Nat) : Nat := (span start len).foldl (fun m t => max m (s.slotPlan t).weight) 0

/-- R77: whether a start slot is a candidate. -/
def State.candidate (s : State) (ceiling weight starts len : Nat) (continuing : Bool) (t : Nat) : Bool :=
  decide (t + len ≤ 48) && s.fitsUnder ceiling weight t len && decide ((s.slotPlan t).starts + starts ≤ s.general.startBudget)
    && !(continuing && t == 0)

/-- R77: of two candidate starts, each with its peak, the one with the smaller peak; the earlier one where they share it. -/
def betterStart (best : Option (Nat × Nat)) (c : Nat × Nat) : Option (Nat × Nat) :=
  match best with
  | none => some c
  | some b => if c.2 < b.2 then some c else some b

/-- R77: the start of the lowest-peak fit of a run, if there is a candidate. -/
def State.lowestPeak (s : State) (ceiling weight starts len : Nat) (continuing : Bool) : Option Nat :=
  ((((List.range 48).filter (s.candidate ceiling weight starts len continuing)).map fun t => (t, s.peak t len)).foldl betterStart none).map
    Prod.fst

/-- A run placed (R69): it takes the next placement sequence, and the slots from `start` on are recomputed. -/
def State.putRun (s : State) (start : Nat) (l : LoopNo) (kind : RunKind) (first last : Nat) (continuation : Bool) (pin : Nat) : State :=
  let n := s.planner.sequence + 1
  (({ s with planner := { s.planner with sequence := n } } : State).onRun l fun _ =>
    ⟨kind, first, last, continuation, n, .asPlaced, last + 1 - first, false, pin⟩).replan start

/-! ### Placement (R73) -/

/-- Whether a loop stands in a SET pin. -/
def State.pinned (s : State) (l : LoopNo) : Bool := s.pins.cells.any fun p => p.isSet && p.loops.contains l

/-- A loop marked DEFERRED. -/
def State.defer (s : State) (l : LoopNo) : State := s.onFlags l fun f => { f with deferred := true }

/-- R73: the start of a placement: every run record empty, every flag cleared, and the per-slot records of the held-open weights alone
(step 0). -/
def State.clearPlan (s : State) : State :=
  ({ s with
      plans := s.plans.map fun p => { p with run := noRun, flags := noFlags, released := false }
      slots := .fill 48 emptySlot
      planner := { s.planner with sequence := 0 } } : State).replan 0

/-- R75: the start of a pinned run in its window `p..e`. -/
def State.pinStart (s : State) (l : LoopNo) (continuing : Bool) (p e : Nat) : Option Nat :=
  if continuing && p == 0 then some 0
  else (span p (e + 1 - p)).find? fun t => decide ((s.slotPlan t).starts + s.runStarts l ≤ s.general.startBudget)

/-- R75, R76: one pinned loop placed in its window, or demoted. -/
def State.placePinned (s : State) (lim : Limits) (cont : Tab 24 Bool) (pin : Nat) (p : Pin) (l : LoopNo) : State :=
  if !s.runLeader l then s
  else if (s.hold l).holdsOut then s.defer l
  else
    let e := p.start + p.length - 1
    let demote := s.onFlags l fun f => { f with demoted := true }
    match s.pinStart l (cont.get l) p.start e with
    | none => demote
    | some t =>
      if s.fitsUnder lim.ceiling (s.runWeight l) t (e + 1 - t) then
        s.putRun 0 l .pinned t e (cont.get l && p.start == 0) pin
      else demote

/-- R75: step 1, the SET pins in pin order and within each its loops in ascending order. -/
def State.placePins (s : State) (lim : Limits) (cont : Tab 24 Bool) : State :=
  (List.finRange 6).foldl (fun s i =>
    let p := s.pins.get i
    if p.isSet then p.loops.foldl (fun s l => s.placePinned lim cont i.val p l) s else s) s

/-- R60: whether a loop is marked an ordinary candidate by the duty calculator. -/
def State.ordinaryCandidate (s : State) (l : LoopNo) : Bool :=
  s.runLeader l && !s.pinned l && decide (s.general.minRun ≤ (s.duty.get l).clipped)

/-- R76: whether a demoted loop joins the ordinary candidates. -/
def State.demotedCandidate (s : State) (l : LoopNo) : Bool :=
  (s.plans.get l).flags.demoted && decide (s.general.minRun ≤ (s.duty.get l).clipped)

/-- A loop put into a list in descending order of `key`, after the loops that share its key. -/
def insertDescending (key : LoopNo → Nat) (l : LoopNo) : List LoopNo → List LoopNo
  | [] => [l]
  | x :: xs => if key x ≤ key l then l :: x :: xs else x :: insertDescending key l xs

/-- Loops in descending order of `key`, ties in the order they stand. -/
def sortDescending (key : LoopNo → Nat) (ls : List LoopNo) : List LoopNo := ls.foldr (insertDescending key) []

/-- R78: a run of one length: the continuation first, then the lowest-peak fit. The answer is the first slot and whether it continues. -/
def State.tryLength (s : State) (lim : Limits) (continuing : Bool) (l : LoopNo) (len : Nat) : Option (Nat × Bool) :=
  if continuing && s.fitsUnder lim.ceiling (s.runWeight l) 0 len then some (0, true)
  else (s.lowestPeak lim.ceiling (s.runWeight l) (s.runStarts l) len continuing).map fun t => (t, false)

/-- R78: lengths tried from `len` down to `least`. The answer is the length, the first slot and whether it continues. -/
def State.tryLengths (s : State) (lim : Limits) (continuing : Bool) (l : LoopNo) (least : Nat) : Nat → Option (Nat × Nat × Bool)
  | 0 => none
  | len + 1 =>
    if len + 1 < least then none
    else match s.tryLength lim continuing l (len + 1) with
      | some r => some (len + 1, r)
      | none => s.tryLengths lim continuing l least len

/-- R78: one ordinary candidate placed, SHORTENED, DEFERRED or OVERWEIGHT. -/
def State.placeOrdinary (lim : Limits) (cont : Tab 24 Bool) (s : State) (l : LoopNo) : State :=
  if lim.ceiling < s.runWeight l then s.onFlags l fun f => { f with deferred := true, overweight := true }
  else match s.tryLengths lim (cont.get l) l s.general.minRun (s.duty.get l).clipped with
    | none => s.defer l
    | some (len, first, continues) =>
      (s.putRun 0 l .ordinary first (first + len - 1) continues 0).onFlags l fun f =>
        { f with shortened := decide (len < (s.duty.get l).clipped) }

/-- R73: the ordinary candidates that a CLOSED or OPEN hold keeps from placement are marked DEFERRED. -/
def State.deferHeld (s : State) : State :=
  (allLoops.filter fun l => s.ordinaryCandidate l && (s.hold l).holdsOut).foldl State.defer s

/-- R78: step 2, the ordinary candidates by q' in descending order, ties in ascending loop number. -/
def State.placeOrdinaries (s : State) (lim : Limits) (cont : Tab 24 Bool) : State :=
  let list := allLoops.filter fun l => (s.ordinaryCandidate l || s.demotedCandidate l) && !(s.hold l).holdsOut
  (sortDescending (fun l => (s.duty.get l).clipped) list).foldl (State.placeOrdinary lim cont) s.deferHeld

/-- R73: in OFF, steps 1 and 2 are not taken: every ordinary candidate and every pinned RUN leader is marked DEFERRED. -/
def State.deferAll (s : State) : State :=
  (allLoops.filter fun l => s.ordinaryCandidate l || (s.runLeader l && s.pinned l)).foldl State.defer s

/-- R79: whether a loop is due for an exercise run. -/
def State.exerciseDue (s : State) (l : LoopNo) : Bool :=
  s.runLeader l && (s.run l).kind == .none && decide (s.general.exerciseInterval ≤ (s.plans.get l).idleFrames) && !(s.hold l).holdsOut

/-- R79: one due loop given a run of 3 slots by lowest-peak fit, if there is a candidate. -/
def State.placeExercise (lim : Limits) (cont : Tab 24 Bool) (s : State) (l : LoopNo) : State :=
  match s.lowestPeak lim.ceiling (s.runWeight l) (s.runStarts l) 3 (cont.get l) with
  | none => s
  | some t => s.putRun 0 l .exercise t (t + 2) false 0

/-- R79: step 3, the due loops by idle-frame count in descending order, ties in ascending loop number. -/
def State.placeExercises (s : State) (lim : Limits) (cont : Tab 24 Bool) : State :=
  (sortDescending (fun l => (s.plans.get l).idleFrames) (allLoops.filter s.exerciseDue)).foldl (State.placeExercise lim cont) s

/-! ### The top-up pass (R80, R86) -/

/-- R80: the loops in ring order: once round from the ring pointer. -/
def ringOrder (ring : LoopNo) : List LoopNo := allLoops.map (ring + ·)

/-- R80, R86: whether a loop can be chosen at a slot. A loop released from a CLOSED or OPEN hold in this frame is no candidate (R86). -/
def State.topUpCandidate (s : State) (lim : Limits) (cont : Tab 24 Bool) (t : Nat) (l : LoopNo) : Bool :=
  s.runLeader l && (s.loopSettings l).topUpEligible && (s.run l).kind == .none && s.hold l == .none && !(s.plans.get l).released
    && decide ((s.slotPlan t).weight + s.runWeight l ≤ lim.ceiling)
    && (decide ((s.slotPlan t).starts + s.runStarts l ≤ s.general.startBudget) || (t == 0 && cont.get l))

/-- R80: whether a slot is below the floor and takes a weight within the ceiling. -/
def State.takesTopUp (s : State) (lim : Limits) (weight t : Nat) : Bool :=
  decide ((s.slotPlan t).weight < lim.floor) && decide ((s.slotPlan t).weight + weight ≤ lim.ceiling)

/-- R80: the length of a TOPUP run that begins at a slot. -/
def State.topUpLength (s : State) (lim : Limits) (weight t : Nat) : Nat :=
  ((span t (48 - t)).takeWhile (s.takesTopUp lim weight)).length

/-- R80: a TOPUP run given to a loop at a slot; the ring pointer moves past the loop. Its loop's carry is limited (R61, R62). -/
def State.giveTopUp (s : State) (lim : Limits) (cont : Tab 24 Bool) (start t : Nat) (l : LoopNo) : State :=
  let len := s.topUpLength lim (s.runWeight l) t
  let placed := s.putRun start l .topUp t (t + len - 1) (t == 0 && cont.get l) 0
  ({ placed with planner := { placed.planner with ring := l + 1 } } : State).onDuty l fun d => { d with carry := min d.carry (48 - len) }

/-- R80: one slot of the pass: loops are added while W is below the floor and the ring finds one. Each round gives a loop its only run of the
frame, so 24 rounds are enough. -/
def State.topUpSlot (lim : Limits) (cont : Tab 24 Bool) (start t : Nat) : Nat → State → State
  | 0, s => s
  | n + 1, s =>
    if (s.slotPlan t).weight < lim.floor then
      match (ringOrder s.planner.ring).find? (s.topUpCandidate lim cont t) with
      | none => s
      | some l => State.topUpSlot lim cont start t n (s.giveTopUp lim cont start t l)
    else s

/-- R80: the top-up pass over the slots `start..47`. -/
def State.topUpPass (s : State) (lim : Limits) (cont : Tab 24 Bool) (start : Nat) : State :=
  (span start (48 - start)).foldl (fun s t => State.topUpSlot lim cont start t 24 s) s

/-- R61: the carry of a RUN leader after placement, `entering` being the carry it entered the frame with. -/
def carryAfter (d : Duty) (r : Run) : Nat :=
  min (48 - r.length) (match r.kind with
    | .pinned => d.carry
    | .ordinary => d.clipped - r.length
    | _ => d.clipped)

/-- R61: the carries after placement. -/
def State.setCarries (s : State) : State :=
  { s with duty := Tab.ofFn fun l =>
      { s.duty.get l with carry := if s.runLeader l then carryAfter (s.duty.get l) (s.run l) else 0 } }

/-- R73: the placement of a new frame against the view and limits in force. `cont` marks the continuing loops; FRAME is not raised for frame 0
(R37). -/
def State.place (s : State) (cont : Tab 24 Bool) (frameZero : Bool) : State :=
  let lim := s.source.limits
  let s := s.clearPlan
  let s := if s.source.view = .off then s.deferAll else (s.placePins lim cont).placeOrdinaries lim cont
  let s := s.placeExercises lim cont
  let s := if lim.floorApplies then s.topUpPass lim cont 0 else s
  let s := (s.setCarries.markShort 0 lim).publishShort
  let s := s.raiseIf (s.plans.cells.any (·.flags.demoted)) .pinDemoted
  let s := s.raiseIf (decide (0 < s.planner.shortCount)) .flowShort
  s.raiseIf (!frameZero) .frame

/-! ### Corrections (5.3) -/

/-- R84, R88, R89: a run ended from slot `s0` on. A run that has begun ends on `last`; a run that has not begun is removed. -/
def Run.stop (r : Run) (s0 last : Nat) (begun notBegun : EndCause) : Run :=
  if r.first < s0 then { r with last := last, endCause := begun } else { r with removed := true, endCause := notBegun }

/-- R62, R85: the carry of a loop whose ordinary run was cut from `before` to `after`: increased by the slots removed, the run and the carry
together at most 48. -/
def cutCarry (carry : Nat) (before after : Run) : Nat :=
  if before.kind = .ordinary then min (carry + (before.length - after.length)) (48 - after.length) else carry

/-- R84: a run ended by a trim at slot `t`. -/
def State.trimRun (s : State) (s0 t : Nat) (l : LoopNo) : State :=
  let r := s.run l
  let r' := r.stop s0 (t - 1) .trimmed .removed
  ((s.onRun l fun _ => r').onDuty l fun d => { d with carry := cutCarry d.carry r r' }).replan s0

/-- R84: the place of a run's kind in the trim order. -/
def RunKind.trimRank : RunKind → Nat
  | .topUp => 0
  | .exercise => 1
  | .ordinary => 2
  | .pinned => 3
  | .none => 4

/-- R84: whether loop `a`'s run comes before loop `b`'s in trim order. -/
def State.trimmedBefore (s : State) (a b : LoopNo) : Bool :=
  let x := s.run a
  let y := s.run b
  if x.kind.trimRank ≠ y.kind.trimRank then x.kind.trimRank < y.kind.trimRank
  else if x.kind = .pinned then y.pin < x.pin || (x.pin == y.pin && b.val < a.val)
  else y.sequence < x.sequence

/-- R84: the run that a trim ends first at a slot. -/
def State.trimVictim (s : State) (t : Nat) : Option LoopNo :=
  (allLoops.filter fun l => (s.run l).covers t).foldl (fun best l => match best with
    | none => some l
    | some b => if s.trimmedBefore l b then some l else some b) none

/-- R84: one slot of a trim: runs that cover it are ended until W no longer exceeds the ceiling or no run covers it. -/
def State.trimSlot (s0 ceiling t : Nat) : Nat → State → State
  | 0, s => s
  | n + 1, s =>
    if ceiling < (s.slotPlan t).weight then
      match s.trimVictim t with
      | none => s
      | some l => State.trimSlot s0 ceiling t n (s.trimRun s0 t l)
    else s

/-- R84: a trim of the slots `s0..47` against a ceiling. -/
def State.trim (s : State) (s0 ceiling : Nat) : State :=
  (span s0 (48 - s0)).foldl (fun s t => State.trimSlot s0 ceiling t 24 s) s

/-- R86: a top-up re-run of the slots `s0..47`, the limits being those in force from `s0`. `before` holds the SHORT fields from before the
correction. -/
def State.topUpRerun (s : State) (before : Tab 48 SlotPlan) (s0 : Nat) (lim : Limits) : State :=
  (s.topUpPass lim (.fill 24 false) s0).reevaluateShort before s0 lim

/-- R86: a re-run where the floor applies from `s0`. -/
def State.rerunIfApplies (s : State) (before : Tab 48 SlotPlan) (s0 : Nat) (lim : Limits) : State :=
  if lim.floorApplies then s.topUpRerun before s0 lim else s

/-- R89: every run other than an EXERCISE run ended from `s0`. EXERCISE runs go on as placed. -/
def State.endRunsForOff (s : State) (s0 : Nat) : State :=
  ({ s with plans := s.plans.map fun p =>
      if p.run.kind = .none || p.run.kind = .exercise || p.run.removed || decide (p.run.last < s0) then p
      else { p with run := p.run.stop s0 (s0 - 1) .sourceOff .sourceOff } } : State).replan s0

/-- R82, R90, R134: the correction for a change of the view and limits that come into force from the next slot, `was` being the state before the event.
They are compared with those of the slot in progress and with those that an earlier event of the slot had announced (log 10). In slot 47, and where they are
those of the slot in progress, no change is handed and none is made. A view that becomes OFF ends the runs and clears the SHORT fields, with no trim and
no re-run (R89, log 11). -/
def State.correctForSource (s was : State) : State :=
  let next := s.nextLimits
  let view := s.nextView
  if s.clock.slot = 47 || (view == s.source.view && next == s.source.limits) then s
  else
    let s0 := s.clock.slot.val + 1
    let before := s.slots
    let views := [s.source.view, was.nextView]
    let limits := [s.source.limits, was.nextLimits]
    let becomes (v : View) : Bool := view == v && views.any (· != v)
    if becomes .off then (s.endRunsForOff s0).reevaluateShort before s0 next
    else
      let lower := limits.any fun old => decide (next.ceiling < old.ceiling)
      let s := if lower then (s.replan s0).trim s0 next.ceiling else s
      if next.floorApplies then
        if lower || (limits.any fun old => decide (old.floor < next.floor) || !old.floorApplies) || becomes .defrost then
          (s.replan s0).topUpRerun before s0 next
        else if limits.any fun old => decide (next.floor < old.floor) then s.reevaluateShort before s0 next
        else s
      else if becomes view then s.reevaluateShort before s0 next
      else s

/-- R88: a run ended by a fault response, if it covers slots from `s0`. -/
def State.faultRun (s : State) (s0 : Nat) (l : LoopNo) : State :=
  let r := s.run l
  if r.kind = .none || r.removed || decide (r.last < s0) then s
  else s.onRun l fun r => r.stop s0 (s0 - 1) .fault .fault

/-- R82: whether a loop's hold has changed from `old` in what the plan sees: a CLOSED or OPEN hold of a loop that is not OFF begins or ends. -/
def State.planSees (s : State) (old : SafePosition) (l : LoopNo) : Bool :=
  s.effMode l != .off && old != s.hold l && (old.holdsOut || (s.hold l).holdsOut)

/-- R88: the runs of the loops that a CLOSED or OPEN hold takes off the plan, ended. -/
def State.faultRuns (s : State) (s0 : Nat) (loops : List LoopNo) : State :=
  (loops.filter fun l => (s.hold l).holdsOut).foldl (fun s l => s.faultRun s0 l) s

/-- R82, R88: the correction for a change of one loop's records, which reach `loops`: the loop, and its follower where it leads one. `old` gives the
holds before. The runs held out end; where some loop comes under an OPEN hold, or the loop is a follower held by its own records alone, W is trimmed;
where a run ended, an OPEN hold began or ended, or a follower's own hold changed, the top-up pass is re-run. In slot 47 no correction is made. -/
def State.correctForHolds (s : State) (loops : List LoopNo) (old : LoopNo → SafePosition) : State :=
  let t := s.clock.slot.val
  let changed := loops.filter fun l => s.planSees (old l) l
  if t = 47 || changed.isEmpty then s
  else
    let s0 := t + 1
    let lim := s.nextLimits
    let before := s.slots
    let alone := loops.all fun l => s.effMode l == .following
    let opens := changed.any fun l => s.hold l == .opened
    let frees := changed.any fun l => old l == .opened
    let ended := s.faultRuns s0 changed
    let ran := changed.any fun l => ended.run l != s.run l
    let s := ended.replan s0
    let s := if opens || alone then s.trim s0 lim.ceiling else s
    if ran || opens || frees || alone then s.rerunIfApplies before s0 lim else s

end Sys2Proof.Machine
end

