-- ==== Sys2Proof/Machine/Balance.lean ====
section
/-! DEFINITION. The balance unit (06): dead slots, samples, heat counts and the dead-time measurement at a slot end, and the factor update, the
reports and the totals at a frame end. -/

namespace Sys2Proof.Machine

open Sys2Proof

/-! ### Slot ends -/

/-- R96: a spread, in tenths of K, clamped to 0..300. -/
def spreadOf (flow ret : Int) : Nat := (clampInt 0 300 (flow - ret)).toNat

/-- R96: the spread of a loop's readings at this slot end: its return VALID, its manifold's flow a reading. -/
def State.spread (s : State) (l : LoopNo) : Option Nat :=
  match s.flowReading (manifoldOf l), s.returnReading l with
  | some flow, some ret => some (spreadOf flow ret)
  | _, _ => none

/-- R95: whether a slot is open to sampling and heat counting: the channel was energised through it and had no dead slots remaining. -/
def State.openSlot (s : State) (l : LoopNo) : Bool := s.energised l && (s.balance.get l).deadSlots == 0

/-- R96, items 1 and 2: whether the run and the source let a slot of a loop be a sample. -/
def State.sampleSlot (s : State) (l : LoopNo) : Bool :=
  let c := s.channels.get l
  let r := s.run (s.planLoop l)
  (c.state == .boost || c.state == .hold) && r.covers s.clock.slot.val && (r.kind == .ordinary || r.kind == .pinned)
    && s.source.view.heating && !s.source.settling

/-- R96, items 1 to 4: the spread that a slot of a loop gives as a sample, its fault holds apart. -/
def State.sampleOf (s : State) (l : LoopNo) : Option Nat := if s.openSlot l && s.sampleSlot l then s.spread l else none

/-- R96: a spread added to S and n. -/
def Balance.sample (b : Balance) (spread : Nat) : Balance := { b with sum := min (b.sum + spread) 16777215, count := b.count + 1 }

/-- R96, item 5: whether a loop counts as free of fault holds at a slot end at which its hold is `before` and then `after` the supervisor's
work. Where the two differ in this, the spec leaves the order open: a free value (log 9). -/
def freeOfHold (draw : Nat) (l : LoopNo) (before after : SafePosition) : Bool :=
  if (before == .none) == (after == .none) then before == .none
  else if Config.sampleAfterSupervisor draw l.val then after == .none
  else before == .none

/-- R96, R97: a loop's sample of a slot end added to its own or its leader's S and n. `was` is the state before the supervisor's work. -/
def State.addSample (was : State) (s : State) (l : LoopNo) : State :=
  match was.sampleOf l with
  | none => s
  | some spread =>
    if freeOfHold s.draws l (was.hold l) (s.hold l) then s.onBalance (s.planLoop l) fun b => b.sample spread else s

/-- R96, R97: the samples of a slot end. -/
def State.addSamples (s was : State) : State := allLoops.foldl (State.addSample was) s

/-- R98: the heat that a slot of a loop adds. -/
def State.slotHeat (s : State) (l : LoopNo) : Nat :=
  if s.openSlot l then (match s.spread l with
    | some spread => s.weight l * spread
    | none => 0)
  else 0

/-- R95, R98: the heat counts and dead slots of a slot end. -/
def State.countHeat (s : State) : State :=
  { s with balance := Tab.ofFn fun l =>
      let b := s.balance.get l
      { b with heat := b.heat + s.slotHeat l, deadSlots := if s.energised l then b.deadSlots - 1 else b.deadSlots } }

/-- R100: the dead time smoothed by a result. -/
def smoothDeadTime (d m : Nat) : Nat := (3 * d + m + 2) / 4

/-- R101: a result filling an empty capture record. -/
def captureOf (m : Measurement) (slots : Nat) : Capture := ⟨true, slots, m.frame, m.slot, m.startReturn⟩

/-- R100, R101: a loop's measurement ended with a result: D is smoothed, and an empty capture record is filled, which raises CAPTURE. A result after
a RELEARN smooths D from 2 at once, within the frame in which R107 has D stay at 2 (log 28). -/
def State.measured (s : State) (l : LoopNo) (m : Measurement) (slots : Nat) : State :=
  let b := s.balance.get l
  let d := smoothDeadTime b.deadTime slots
  let s' := s.onBalance l fun b =>
    { b with measurement := none, deadTime := d, capture := if b.capture.full then b.capture else captureOf m slots }
  (if d = b.deadTime then s' else s'.learned).raiseIf (!b.capture.full) .capture

/-- Whether a return reading has risen by `rise` tenths of K over the reading at the start. -/
def risen (reading : Option Int) (start rise : Int) : Bool :=
  match reading with
  | some t => decide (start + rise ≤ t)
  | none => false

/-- R100: a loop's measurement at a slot end. -/
def State.advanceMeasurement (s : State) (l : LoopNo) : State :=
  match (s.balance.get l).measurement with
  | none => s
  | some m =>
    if s.energised l then
      let slots := m.slots + 1
      if risen (s.returnReading l) m.startReturn 5 then s.measured l m slots
      else if slots < 12 then s.onBalance l fun b => { b with measurement := some { m with slots := slots } }
      else s.onBalance l fun b => { b with measurement := none }
    else s

/-- R100: the measurements of a slot end. -/
def State.advanceMeasurements (s : State) : State := allLoops.foldl State.advanceMeasurement s

/-! ### Frame ends -/

/-- R104: the outcome of a loop's frame-end update. -/
def State.balanceOutcome (s : State) (l : LoopNo) : BalanceOutcome :=
  let b := s.balance.get l
  if !s.runLeader l then .notLeader
  else if b.relearned then .relearned
  else if s.hold l != .none then .held
  else if b.count < 3 then .tooFew
  else .updated

/-- R105, stage 1; R108: the average spread, raised to 5 where lower; 0 where there is no sample. -/
def averageSpread (sum count : Nat) : Nat := if count = 0 then 0 else max 5 (sum / count)

/-- R105, stages 1 to 4: k plus the limited step, before the clamp of stage 5. -/
def steppedFactor (k sum count designSpread gain : Nat) : Int :=
  let r : Int := (k * designSpread / averageSpread sum count : Nat)
  k + clampInt (-32) 32 (Int.tdiv ((r - k) * gain) 8)

/-- R105, stage 5: the new factor. -/
def updatedFactor (k sum count designSpread gain : Nat) : Nat :=
  (clampInt 64 1024 (steppedFactor k sum count designSpread gain)).toNat

/-- R105, R106, R108: a loop's balance closed at a frame end, given its outcome. -/
def Balance.close (b : Balance) (frame : FrameNo) (outcome : BalanceOutcome) (designSpread gain : Nat) : Balance :=
  let updates := outcome == .updated
  let step := steppedFactor b.factor b.sum b.count designSpread gain
  let after := if updates then updatedFactor b.factor b.sum b.count designSpread gain else b.factor
  { b with
    sum := 0
    count := 0
    heat := 0
    relearned := false
    factor := after
    limitHigh := if updates then decide (1024 < step) else b.limitHigh
    limitLow := if updates then decide (step < 64) else b.limitLow
    report := ⟨frame, outcome, b.sum, b.count, averageSpread b.sum b.count, b.heat, b.factor, after⟩ }

/-- R104, R108: the balance of every loop at a frame end, under the settings of the frame that ends. -/
def State.closedBalance (s : State) : Tab 24 Balance :=
  Tab.ofFn fun l => (s.balance.get l).close s.clock.frame (s.balanceOutcome l) (s.loopSettings l).designSpread s.general.balanceGain

/-- R34, R104, R108: the frame's measurement closed. -/
def State.closeBalance (s : State) : State :=
  let closed := s.closedBalance
  let changed := allLoops.any fun l => (closed.get l).factor != (s.balance.get l).factor
  let t : State := { s with balance := closed }
  if changed then t.learned else t

/-- R109: the sum of H over loops. -/
def heatOver (balance : Tab 24 Balance) (loops : List LoopNo) : Nat := loops.foldl (fun h l => h + (balance.get l).report.heat) 0

/-- R109: the totals of a frame end, from the reports just written and the room lists of the frame that ends. -/
def State.totalHeat (s : State) : State :=
  let a := heatOver s.balance (loopsOf .a)
  let b := heatOver s.balance (loopsOf .b)
  { s with
    rooms := Tab.ofFn fun r => { s.rooms.get r with heat := heatOver s.balance (s.store.inForce.rooms.get r).loops }
    heat := ⟨s.clock.frame, a, b, a + b⟩ }

/-! ### Relearn and clears -/

/-- R20, R107: a loop relearned. -/
def Balance.relearn (b : Balance) : Balance :=
  { b with factor := 256, deadTime := 2, limitHigh := false, limitLow := false, sum := 0, count := 0, relearned := true }

/-- R102: a capture record emptied. -/
def Balance.emptyCapture (b : Balance) : Balance := { b with capture := Machine.emptyCapture }

/-- R111: a plan reset carried out in slot 0..46. -/
def Balance.planReset (b : Balance) : Balance := { b with sum := 0, count := 0, heat := 0, relearned := false, deadSlots := 0 }

end Sys2Proof.Machine
end

