-- ==== Sys2Proof/Machine/Channels.lean ====
section
/-! DEFINITION. The actuator channels (07): starting, de-energising, blocking and unblocking a channel, the start arbiter, and what a hold asks
of a channel. -/

namespace Sys2Proof.Machine

open Sys2Proof

/-! ### Energised periods -/

/-- A channel with its drive ended (R112, R117): the sensing times are 0. Its state is the caller's to set. -/
def Channel.undriven (c : Channel) : Channel :=
  { c with phase := .none, overcurrentTime := 0, openLoadTime := 0, recoveryTime := 0, onTime := 0, cut := false }

/-- What ends with a loop's energised period (R94): the drive (R117), an armed dead-time measurement (R100), the stuck-closed check with a
present STUCK_CLOSED (R146), and the drive conditions (R117). -/
def State.endPeriod (s : State) (l : LoopNo) : State :=
  if s.energised l then
    (((((s.onChannel l Channel.undriven).onBalance l fun b => { b with measurement := none }).onWatch l fun w =>
      { w with check := none }).conditionEnd (.loop .driveOvercurrent l)).conditionEnd (.loop .driveOpen l)).conditionEnd
        (.loop .stuckClosed l)
  else s

/-- A channel's state set. -/
def State.setChannelState (s : State) (l : LoopNo) (st : ChannelState) (why : PendingFor) : State :=
  s.onChannel l fun c => { c with state := st, pendingFor := why }

/-! ### Block causes -/

/-- Whether a set of causes holds one. -/
def BlockCauses.has (c : BlockCauses) : BlockCause → Bool
  | .fault => c.fault
  | .shutdown => c.shutdown
  | .supply => c.supply

/-- A cause put into or taken out of a set. -/
def BlockCauses.put (c : BlockCauses) (cause : BlockCause) (b : Bool) : BlockCauses :=
  match cause with
  | .fault => { c with fault := b }
  | .shutdown => { c with shutdown := b }
  | .supply => { c with supply := b }

/-- Whether a set of causes is empty. -/
def BlockCauses.isEmpty (c : BlockCauses) : Bool := !c.fault && !c.shutdown && !c.supply

/-- R112: whether the run that drives a loop has begun and covers the current slot. A run that a fault response ended does not restart
(R122, log 14). A CLOSED hold begun in the run's last slot ends no slot of it and leaves no such mark (R88): released within that slot, it leaves the
run calling for its channel until the slot ends (log 31). -/
def State.runCallsFor (s : State) (l : LoopNo) : Bool :=
  let r := s.run (s.planLoop l)
  r.covers s.clock.slot.val && r.endCause != .fault

/-- R112: the state a channel goes to when its last block cause leaves. -/
def State.callsFor (s : State) (l : LoopNo) : ChannelState × PendingFor :=
  if s.effMode l = .off then (.idle, .restart)
  else if s.hold l = .opened then (.pending, .safeOpen)
  else if s.runCallsFor l then (.pending, .restart)
  else (.idle, .restart)

/-- R112: a block cause removed; the last one to leave lets the channel go to the state its loop calls for. -/
def State.unblock (s : State) (l : LoopNo) (cause : BlockCause) : State :=
  let c := s.channels.get l
  if c.causes.has cause then
    let left := c.causes.put cause false
    let s := s.onChannel l fun c => { c with causes := left }
    if left.isEmpty then s.setChannelState l (s.callsFor l).1 (s.callsFor l).2 else s
  else s

/-- R125: whether a follower's FAULT cause waits only for its leader's channel to be de-energised: no CLOSED hold stands on it, and its leader's
channel is not energised. -/
def State.faultStale (s : State) (l : LoopNo) : Bool :=
  (s.channels.get l).causes.fault && s.hold l != .closed && !(s.effMode l == .following && s.energised (partner l))

/-- R125: a follower's FAULT cause released. -/
def State.releaseStale (s : State) (l : LoopNo) : State := if s.faultStale l then s.unblock l .fault else s

/-- A channel de-energised: its period ends (R94), and a follower that waited for it is released (R125). -/
def State.deEnergise (s : State) (l : LoopNo) : State :=
  if s.energised l then
    let s := s.endPeriod l
    if s.effMode (partner l) = .following then s.releaseStale (partner l) else s
  else s

/-- R112: a block cause added: the channel is de-energised at once and BLOCKED. -/
def State.block (s : State) (l : LoopNo) (cause : BlockCause) : State :=
  ((s.onChannel l fun c => { c with causes := c.causes.put cause true, state := .blocked, pendingFor := .restart }).deEnergise l)

/-! ### Starts -/

/-- The on-time, in ms, of a drive period (R114). -/
def driveOnTime (holdDuty : Nat) : DrivePhase → Nat
  | .none => 0
  | .boost => 100
  | .hold => holdDuty

/-- R114: a channel started, in state BOOST or SAFE_OPEN. -/
def Channel.started (st : ChannelState) (c : Channel) : Channel :=
  { c with state := st, phase := .boost, pendingFor := .restart, boostElapsed := 0, limited := 0, overcurrentTime := 0, openLoadTime := 0,
           recoveryTime := 0, onTime := driveOnTime 0 .boost, cut := false, inSlot := true, inFrame := true }

/-- R99: the dead-time measurement armed at a start, if the readings allow it. -/
def State.armMeasurement (s : State) (l : LoopNo) : Option Measurement :=
  match s.returnReading l, s.flowReading (manifoldOf l) with
  | some r0, some f0 =>
    if (s.loopSettings l).returnSensorPresent && decide (30 ≤ f0 - r0) then some ⟨r0, 0, s.clock.frame, s.clock.slot⟩ else none
  | _, _ => none

/-- R146: the stuck-closed check armed at a start, if its setting and the readings allow it. -/
def State.armCheck (s : State) (l : LoopNo) : Option StuckCheck :=
  match s.returnReading l, s.flowReading (manifoldOf l) with
  | some r0, some f0 =>
    if (s.loopSettings l).stuckClosedCheck && (s.loopSettings l).returnSensorPresent && decide (30 ≤ f0 - r0) then some ⟨r0, f0, 0⟩
    else none
  | _, _ => none

/-- A start of a channel (R114, R95, R99, R146), in state BOOST or SAFE_OPEN. -/
def State.startChannel (s : State) (l : LoopNo) (st : ChannelState) : State :=
  let m := s.armMeasurement l
  let c := s.armCheck l
  ((s.onChannel l (Channel.started st)).onBalance l fun b => { b with deadSlots := b.deadTime, measurement := m }).onWatch l fun w =>
    { w with check := c }

/-- R113: whether a loop's plan start is due at a slot start and is taken: its run begins there as a new start and its channel is IDLE. -/
def State.planStartTaken (s : State) (l : LoopNo) : Bool :=
  let r := s.run l
  r.covers s.clock.slot.val && r.first == s.clock.slot.val && !r.continuation && (s.channels.get l).state == .idle

/-- R113: whether a loop's plan start takes its follower's channel with it. -/
def State.followerStarts (s : State) (l : LoopNo) : Bool := s.drivesFollower l && (s.channels.get (partner l)).state == .idle

/-- R113: a loop's channel started by its run, with its follower's where the run drives it, counted with its c (R118). -/
def State.startRun (s : State) (l : LoopNo) : State :=
  let c := s.runStarts l
  let follows := s.followerStarts l
  let s := s.startChannel l .boost
  let s := if follows then s.startChannel (partner l) .boost else s
  { s with supply := { s.supply with planStarts := s.supply.planStarts + c } }

/-- A plan start that would take the slot past the start budget waits for the arbiter (R118, log 25). -/
def State.postponeRun (s : State) (l : LoopNo) : State :=
  let follows := s.followerStarts l
  let s := s.setChannelState l .pending .restart
  if follows then s.setChannelState (partner l) .pending .restart else s

/-- R113: a loop's plan start at a slot start. Where the slot's plan starts are more than the start budget, those of the lower loop numbers are taken and
the others wait (log 25). -/
def State.planStart (s : State) (l : LoopNo) : State :=
  if s.planStartTaken l then
    if s.supply.planStarts + s.runStarts l ≤ s.general.startBudget then s.startRun l else s.postponeRun l
  else s

/-- R118: the state a PENDING channel enters when it is served. -/
def PendingFor.served : PendingFor → ChannelState
  | .restart => .boost
  | .safeOpen => .safeOpen

/-- R118: whether a follower waits with its leader: both PENDING, for the same thing (log 15). -/
def State.waitTogether (s : State) (l : LoopNo) : Bool :=
  s.effMode l == .leader && (s.channels.get l).state == .pending && (s.channels.get (partner l)).state == .pending
    && (s.channels.get l).pendingFor == (s.channels.get (partner l)).pendingFor

/-- A PENDING channel served. -/
def State.serveOne (s : State) (l : LoopNo) : State :=
  let s := s.startChannel l ((s.channels.get l).pendingFor.served)
  { s with supply := { s.supply with extraStarts := s.supply.extraStarts + 1 } }

/-- R118: the budget left for extra starts in the slot in progress. -/
def State.budgetLeft (s : State) : Nat := s.general.startBudget - s.supply.planStarts - s.supply.extraStarts

/-- R118, R125: whether a leader's turn starts its follower too: the two wait together, or the leader waits to RESTART a run that drives its IDLE
follower, as one whose OPEN hold has ended meanwhile (log 36). -/
def State.servedAsPair (s : State) (l : LoopNo) : Bool :=
  s.waitTogether l || ((s.channels.get l).pendingFor == .restart && s.followerStarts l)

/-- R118: one loop's turn with the arbiter. A follower that waits with its leader is the leader's turn. -/
def State.arbiterTurn (s : State) (l : LoopNo) : State :=
  if (s.channels.get l).state != .pending then s
  else if s.effMode l == .following && s.waitTogether (partner l) then s
  else if s.servedAsPair l then (if 2 ≤ s.budgetLeft then (s.serveOne l).serveOne (partner l) else s)
  else if 1 ≤ s.budgetLeft then s.serveOne l
  else s

/-- R118: the arbiter serves the PENDING channels in ascending loop number, each once. -/
def State.arbiter (s : State) : State := allLoops.foldl State.arbiterTurn s

/-- A channel's marks at a slot start: energised in this slot, and in this frame (R147, R72). -/
def Channel.slotMarks (c : Channel) : Channel := { c with inSlot := c.energised, inFrame := c.inFrame || c.energised }

/-- R113, R118: a slot start at the channels: the plan starts in ascending loop number (which decides only where they are more than the start budget,
log 25), then the arbiter, from the slot's whole budget. -/
def State.startSlotChannels (s : State) : State :=
  let s := { s with supply := { s.supply with planStarts := 0, extraStarts := 0 } }
  let s := (allLoops.foldl State.planStart s).arbiter
  { s with channels := s.channels.map Channel.slotMarks }

/-! ### What a hold asks of a channel (R122, R123, R125) -/

/-- R125: whether a loop is a follower whose leader's channel is energised. -/
def State.leaderRuns (s : State) (l : LoopNo) : Bool := s.effMode l == .following && s.energised (partner l)

/-- R125: whether a follower's channel keeps FAULT as its own CLOSED hold ends: its leader's channel is energised, and no OPEN hold of its own stands,
which would drive the follower by itself (R145, log 36). -/
def State.keepsFault (s : State) (l : LoopNo) : Bool := s.leaderRuns l && !(ownPositions s.conds l).contains .opened

/-- R122, R123, R125: the channel's part of a change of its loop's hold, from `old` to the hold as it stands. -/
def State.channelForHold (s : State) (l : LoopNo) (old : SafePosition) : State :=
  let new := s.hold l
  let c := s.channels.get l
  if old = new then s
  else if new = .closed then s.block l .fault
  else if old = .closed then
    if s.keepsFault l then s else s.unblock l .fault
  else if new = .opened then
    if c.state = .idle || (c.state = .pending && c.pendingFor = .restart) then s.setChannelState l .pending .safeOpen else s
  else if old = .opened && c.state = .pending && c.pendingFor = .safeOpen then
    if s.leaderRuns l then s.block l .fault else s.setChannelState l .idle .restart
  else s

/-! ### Slot ends -/

/-- R113: whether the run that drives a loop goes on into the next slot. -/
def State.runGoesOn (s : State) (l : LoopNo) : Bool := (s.run (s.planLoop l)).covers (s.clock.slot.val + 1)

/-- Whether a channel's state is one in which a run drives it or is waited for. -/
def Channel.onRun (c : Channel) : Bool :=
  c.state == .boost || c.state == .hold || (c.state == .pending && c.pendingFor == .restart)

/-- R113, R123: the end of a slot for a channel driven by a run: de-energised for SAFE_OPEN where its loop is under an OPEN hold, de-energised
where its run does not go on. -/
def State.endSlotRun (s : State) (l : LoopNo) : State :=
  let c := s.channels.get l
  if c.onRun then
    if s.hold l = .opened then (s.deEnergise l).setChannelState l .pending .safeOpen
    else if s.runGoesOn l then s
    else (s.deEnergise l).setChannelState l .idle .restart
  else s

/-- R123, R125: the end of a slot for a SAFE_OPEN channel whose OPEN hold has ended. The hold as it stands at the slot end decides: where one OPEN hold
ended and another began within the slot, the channel stays energised with no new start (log 29). -/
def State.endSlotSafeOpen (s : State) (l : LoopNo) : State :=
  if (s.channels.get l).state = .safeOpen && s.hold l != .opened then
    if s.leaderRuns l then s.block l .fault else (s.deEnergise l).setChannelState l .idle .restart
  else s

/-- R123, R125: the end of a slot for the SAFE_OPEN channels whose OPEN holds have ended. -/
def State.endSafeOpens (s : State) : State := allLoops.foldl State.endSlotSafeOpen s

/-- R113, R123: the end of a slot 0..46 at the channels. -/
def State.endSlotChannels (s : State) : State := allLoops.foldl State.endSlotRun s.endSafeOpens

/-- R123: a run's channel under an OPEN hold at the end of slot 47, de-energised there for SAFE_OPEN. -/
def State.yieldRun (s : State) (l : LoopNo) : State :=
  if (s.channels.get l).onRun && s.hold l == .opened then (s.deEnergise l).setChannelState l .pending .safeOpen else s

/-- R123: the end of slot 47 at the channels, before anything of the new frame: what the OPEN holds bring as in every slot. Its run-driven channels
are the frame boundary's (R74). -/
def State.endLastSlotChannels (s : State) : State := allLoops.foldl State.yieldRun s.endSafeOpens

/-- R74: whether a channel that a run energised is carried over a frame boundary by a continuation. -/
def State.carriedOver (s : State) (l : LoopNo) : Bool :=
  let p := s.planLoop l
  (s.run p).kind != .none && (s.run p).continuation && (p == l || s.drivesFollower p)

/-- R74, R113, R119, R123: the frame boundary for a channel. A run's channel that no continuation carries on, and one that waits to RESTART, go
IDLE, or PENDING for SAFE_OPEN where the loop is under an OPEN hold; SAFE_OPEN and its wait end where the hold has ended or the loop is OFF. A SAFE_OPEN
channel whose OPEN hold stands on stays energised, also where its pair is formed or split (log 32). -/
def State.frameChannel (s : State) (l : LoopNo) : State :=
  let c := s.channels.get l
  if c.onRun then
    if s.hold l = .opened then (s.deEnergise l).setChannelState l .pending .safeOpen
    else if c.energised && s.carriedOver l then s
    else (s.deEnergise l).setChannelState l .idle .restart
  else if c.state = .pending && s.effMode l = .off then s.setChannelState l .idle .restart
  else s

/-- R119: a wait to RESTART ends at the frame boundary. -/
def State.endRestartWait (s : State) (l : LoopNo) : State :=
  let c := s.channels.get l
  if c.state = .pending && c.pendingFor = .restart then s.setChannelState l .idle .restart else s

/-- R74, R119, R125: the frame boundary at the channels. What it raises goes by the routes just adopted (log 35). -/
def State.frameChannels (s : State) : State :=
  let s := (allLoops.foldl State.frameChannel s).endSafeOpens
  allLoops.foldl State.endRestartWait (allLoops.foldl State.releaseStale s)

/-- R114: the drive values adopted at a frame end, from the first drive period of slot 0: a channel past a lowered boost time enters HOLD, and
every driven switch takes its share of the new period. -/
def Channel.enterHold (g : General) (c : Channel) : Channel :=
  if c.phase = .boost && decide (g.boostTime * 10 ≤ c.boostElapsed) then
    { c with phase := .hold, state := if c.state = .boost then .hold else c.state, onTime := driveOnTime g.holdDuty .hold, cut := false }
  else { c with onTime := driveOnTime g.holdDuty c.phase, cut := false }

/-- R91, R127: a plan reset for a channel: de-energised whatever drives it; BLOCKED stays BLOCKED, a loop under an OPEN hold waits for
SAFE_OPEN, every other channel is IDLE. -/
def State.resetChannel (s : State) (l : LoopNo) : State :=
  if (s.channels.get l).state = .blocked then s
  else if s.hold l = .opened then s.setChannelState l .pending .safeOpen
  else s.setChannelState l .idle .restart

/-- R91: a plan reset at the channels. A follower BLOCKED only by the FAULT that waits for its leader's channel is released as that is de-energised
(R125), and is IDLE (log 30). -/
def State.resetChannels (s : State) : State :=
  allLoops.foldl State.resetChannel (allLoops.foldl State.deEnergise s)

end Sys2Proof.Machine
end

