-- ==== Sys2Proof/Machine/Supervisor.lean ====
section
/-! DEFINITION. The supervisor (09): a condition that becomes present or ends, with its response, its fixed action and what a changed hold does
to the channels and the plan; RETRY expiries and clears. -/

namespace Sys2Proof.Machine

open Sys2Proof

/-! ### A changed hold, handed on (R145) -/

/-- R145: the loops that the records of a loop reach: the loop, and the follower of a LEADER. -/
def State.reach (s : State) (l : LoopNo) : List LoopNo := if s.effMode l = .leader then [l, partner l] else [l]

/-- R145: the hold of a loop under other condition records, the settings in force being those of now. -/
def State.holdUnder (s : State) (before : Conditions) (l : LoopNo) : SafePosition := loopHold s.store.inForce.loops before l

/-- R86, R145: a loop whose CLOSED or OPEN hold has just been released is no top-up candidate for the rest of the frame. -/
def State.markReleased (before : Conditions) (s : State) (l : LoopNo) : State :=
  if (s.holdUnder before l).holdsOut && !(s.hold l).holdsOut then s.onPlan l fun p => { p with released := true } else s

/-- R145: the channel's part of a loop's changed hold. -/
def State.handChannel (before : Conditions) (s : State) (l : LoopNo) : State := s.channelForHold l (s.holdUnder before l)

/-- R145: what a change of a loop's records hands on, at once, to the actuator channels and then to the planner. `before` holds the condition
records from before the change. -/
def State.handHold (s : State) (before : Conditions) (l : LoopNo) : State :=
  let s := (s.reach l).foldl (State.handChannel before) s
  let s := (s.reach l).foldl (State.markReleased before) s
  s.correctForHolds (s.reach l) (s.holdUnder before)

/-! ### Presence and end -/

/-- R124: FLOW_SHUTDOWN present at a manifold: every channel of it is BLOCKED (SHUTDOWN) at once. -/
def State.shutDown (s : State) (m : Manifold) : State := (loopsOf m).foldl (fun s l => s.block l .shutdown) s

/-- R124: FLOW_SHUTDOWN ended at a manifold: SHUTDOWN leaves every channel of it. -/
def State.endShutDown (s : State) (m : Manifold) : State := (loopsOf m).foldl (fun s l => s.unblock l .shutdown) s

/-- R146: a STUCK_CLOSED condition found in the same instant in which its period has ended ends at once. -/
def State.settleStuckClosed (s : State) (c : LoopClass) (l : LoopNo) : State :=
  if c = .stuckClosed && !s.energised l then s.conditionEnd (.loop c l) else s

/-- What a condition that has become present does beside its record (9.4): the hold it begins is handed on, and the block that owns it takes its
fixed action (R54, R124, R131). -/
def State.actOnPresence (s : State) (before : Conditions) : CondKey → State
  | .loop c l => (s.handHold before l).settleStuckClosed c l
  | .manifold .flowShutdown m => s.shutDown m
  | .manifold _ _ => s
  | .room _ => s.raise .roomFallback
  | .part .sourceSilent => (s.raise .sourceFallback).correctForSource { s with conds := before }
  | .part _ => s

/-- R143, R149: a condition that was absent becomes present. -/
def State.becomePresent (s : State) (key : CondKey) : State :=
  if s.present key then s else (s.conditionPresent key).actOnPresence s.conds key

/-- What the end of a condition does beside its record (R124). -/
def State.actOnEnd (s : State) : CondKey → State
  | .manifold .flowShutdown m => s.endShutDown m
  | _ => s

/-- R144, R149: a condition that was present ends. -/
def State.becomeAbsent (s : State) (key : CondKey) : State :=
  if s.present key then (s.conditionEnd key).actOnEnd key else s

/-- A condition decided: present or absent. -/
def State.decideCondition (s : State) (key : CondKey) (now : Bool) : State :=
  if now then s.becomePresent key else s.becomeAbsent key

/-! ### RETRY expiries (R144) -/

/-- R144: a record whose RETRY hold has reached the retry time. -/
def State.expire (s : State) (c : LoopClass) (l : LoopNo) : State :=
  if s.retryDue (.loop c l) then (s.retryExpire (.loop c l)).handHold s.conds l else s

/-- The five loop classes in class order (R140). -/
def loopClasses : List LoopClass := [.driveOvercurrent, .driveOpen, .stuckClosed, .stuckOpen, .returnSensor]

/-- R144: every RETRY hold that has reached the retry time, in class order and then loop order. -/
def State.expireAll (s : State) : State :=
  loopClasses.foldl (fun s c => allLoops.foldl (fun s l => s.expire c l) s) s

/-- R144: whether some RETRY hold has reached the retry time. -/
def State.anyExpiry (s : State) : Bool := loopKeys.any s.retryDue

/-! ### Clears (R151) -/

/-- R151: a record that a clear leaves as it is: its condition is present, or a RETRY hold stands. -/
def CondRecord.stillActive (r : CondRecord) : Bool := r.present || r.hold == .retry

/-- R145: a released hold of a record handed on: a loop's alone reaches channels and the plan. -/
def State.handRelease (s : State) (before : Conditions) : CondKey → State
  | .loop _ l => s.handHold before l
  | _ => s

/-- R151: one record named in a clear. -/
def State.clearRecord (s : State) (key : CondKey) : State :=
  let r := s.record key
  if r.stillActive then s
  else if r.hold = .latch then
    ((s.setRecord key { r with hold := .none, retrySlots := 0 }).delist key).handRelease s.conds key
  else s.delist key

/-- R151: whether a record named in a clear is still active. -/
def State.activeAt (s : State) (key : CondKey) : Bool := (s.record key).stillActive

/-- R151: the order of CLEAR FAULTS ALL: the listed records in list order, then the unlisted ones. -/
def State.clearOrder (s : State) : List CondKey :=
  s.faults.entries.map FaultEntry.key ++ allKeys.filter fun k => !s.listed k

end Sys2Proof.Machine
end

