-- ==== Sys2Proof/Machine/Duty.lean ====
section
/-! DEFINITION. Rooms and the duty calculator (04): ageing, the demand of each loop, its requests, and the flow request. -/

namespace Sys2Proof.Machine

open Sys2Proof

/-! ### Ageing (R54, R55) -/

/-- R55: a used room aged at a frame start. -/
def Room.aged (timeout : Nat) (r : Room) : Room :=
  let age := min (r.age + 1) 255
  { r with age := age, state := if r.state != .stale && decide (timeout ≤ age) then .stale else r.state }

/-- Whether a room's list in force is not empty. -/
def State.roomUsed (s : State) (r : Fin 16) : Bool := !(s.store.inForce.rooms.get r).loops.isEmpty

/-- R54: whether a room's ROOM_SILENT condition holds. -/
def State.roomSilent (s : State) (r : Fin 16) : Bool := s.roomUsed r && (s.rooms.get r).state == .stale

/-- R54, R55: one room at a frame start. -/
def State.ageRoom (s : State) (r : Fin 16) : State :=
  let s := if s.roomUsed r then s.onRoom r (Room.aged s.general.demandTimeout) else s
  s.decideCondition (.room r) (s.roomSilent r)

/-- R55: the ageing of a frame start. -/
def State.ageRooms (s : State) : State := allRooms.foldl State.ageRoom s

/-! ### Demand and requests (R56 to R59) -/

/-- R56: the demand in use of a RUN leader and its origin. -/
def State.demandOf (s : State) (l : LoopNo) : Nat × Origin :=
  match roomOf s.store.inForce.rooms l with
  | none => (0, .none)
  | some r => if (s.rooms.get r).state = .fresh then ((s.rooms.get r).posted, .posted) else ((s.store.inForce.rooms.get r).fallback, .fallback)

/-- R58: the unclamped request, rounded half up. -/
def unclampedRequest (demand factor : Nat) : Nat := (demand * 48 * factor + 12800) / 25600

/-- R59: the duty of a RUN leader from its demand, its factor and the carry it holds. -/
def dutyOf (demand : Nat) (origin : Origin) (factor carry : Nat) : Duty :=
  let rho := unclampedRequest demand factor
  let carry := if demand = 0 then 0 else carry
  ⟨demand, origin, rho, carry, min (min rho 48 + carry) 48⟩

/-- R56 to R59: a loop's duty at a frame start. -/
def State.dutyFor (s : State) (l : LoopNo) : Duty :=
  if s.runLeader l then dutyOf (s.demandOf l).1 (s.demandOf l).2 (s.balance.get l).factor (s.duty.get l).carry else noDuty

/-- R56 to R59: the duties of a frame start. -/
def State.computeDuty (s : State) : State := { s with duty := Tab.ofFn s.dutyFor }

/-- R19, R59, R63: every carry 0. -/
def State.clearCarries (s : State) : State := { s with duty := s.duty.map fun d => { d with carry := 0 } }

/-! ### The flow request (R64 to R67) -/

/-- R67: the flow request set; FLOW_REQUEST is raised where its value changes. -/
def State.setFlowRequest (s : State) (x : Nat) : State :=
  ({ s with flowRequest := x } : State).raiseIf (x != s.flowRequest) .flowRequest

/-- R67: a value brought between the flow limits in force. -/
def State.clampFlow (s : State) (x : Nat) : Nat := clampNat s.source.limits.flowLow s.source.limits.flowHigh x

/-- R67: the re-clamp of the flow request to the limits in force. -/
def State.reclampFlow (s : State) : State := s.setFlowRequest (s.clampFlow s.flowRequest)

/-- R65: whether a loop is in the eligible set. -/
def State.flowEligible (s : State) (l : LoopNo) : Bool := s.runLeader l && decide (0 < (s.duty.get l).demand) && s.hold l == .none

/-- R65: the stepped flow request, before its clamp. -/
def State.steppedFlow (s : State) : Nat :=
  let g := s.general
  let rhos := (allLoops.filter s.flowEligible).map fun l => (s.duty.get l).rho
  if rhos.any (fun r => decide (48 < r)) then s.flowRequest + g.flowStepUp
  else if rhos.all (fun r => decide (r < 48 - g.headroom)) then s.flowRequest - g.flowStepDown
  else s.flowRequest

/-- R65, R66, R67: the flow request at a frame start: stepped in HEAT and FALLBACK, held in the other views, and clamped once. -/
def State.stepFlow (s : State) : State :=
  s.setFlowRequest (s.clampFlow (if s.source.view.heating then s.steppedFlow else s.flowRequest))

end Sys2Proof.Machine
end

