-- ==== Sys2Proof/Machine/Sensors.lean ====
section
/-! DEFINITION. The temperature inputs (03): conversion, holding and counting of readings, the sensor-fault decision, and the slot results. -/

namespace Sys2Proof.Machine

open Sys2Proof

/-- R41: whether a code is believed. -/
def validCode (code : BitVec 12) : Bool := decide (32 ≤ code.toNat) && decide (code.toNat ≤ 4063)

/-- The point of a conversion table at code `256 * j`. -/
def conversionPoint (table : Tab 17 Int) (j : Nat) : Int := if h : j < 17 then table.get ⟨j, h⟩ else 0

/-- R42: a code converted with the points of a conversion table. -/
def convert (table : Tab 17 Int) (code : BitVec 12) : Int :=
  let j := code.toNat / 256
  let offset : Int := (code.toNat % 256 : Nat)
  let t := conversionPoint table j
  clampInt (-300) 950 (t + Int.tdiv ((conversionPoint table (j + 1) - t) * offset) 256)

/-- R44, R45: a reading reaching a channel. Its slot result follows the condition and is set by `slotResult`. -/
def Sensor.take (x : Sensor) (table : Tab 17 Int) (code : BitVec 12) : Sensor :=
  if validCode code then
    { x with lastCode := code, lastValid := some (convert table code), stale := false, invalidRun := 0, validRun := min (x.validRun + 1) 255 }
  else
    { x with lastCode := code, stale := x.lastValid.isSome, validRun := 0, invalidRun := min (x.invalidRun + 1) 255 }

/-- R46, R47: whether a channel may carry the sensor-fault condition. -/
def State.mayCarry (s : State) (ch : Fin 26) : Bool :=
  if h : ch.val < 24 then (s.loopSettings ⟨ch.val, h⟩).returnSensorPresent else true

/-- R46: the condition decided from the counts. -/
def faultDecision (mayCarry present : Bool) (x : Sensor) : Bool :=
  mayCarry && if present then decide (x.validRun < 3) else decide (3 ≤ x.invalidRun)

/-- R46: the sensor-fault condition of a channel as its counts decide it. -/
def State.sensorFault (s : State) (ch : Fin 26) : Bool :=
  faultDecision (s.mayCarry ch) (s.present (sensorKey ch)) (s.sensors.get ch)

/-- R48: the slot result of a channel whose own reading counts. -/
def Sensor.ownResult (x : Sensor) : SlotResult :=
  match x.lastValid with
  | none => .none
  | some t => if validCode x.lastCode then .valid t else .stale

/-- R48, R49: the slot result of a channel, `fault` being its condition as decided at this slot end. -/
def State.slotResult (s : State) (ch : Fin 26) (fault : Bool) : SlotResult :=
  let x := s.sensors.get ch
  if ch.val < 24 then (if s.mayCarry ch then x.ownResult else .absent)
  else if fault then
    match s.source.freshTemp with
    | some t => .substituted t
    | none => x.ownResult
  else x.ownResult

/-- R40: the readings of a slot reaching the 26 channels, under the conversion table in force. -/
def State.takeReadings (s : State) (codes : Codes) : State :=
  { s with sensors := Tab.ofFn fun ch => (s.sensors.get ch).take s.store.inForce.conversion (codes.get ch) }

/-- R48, R49: the slot results of a slot end, under the conditions its readings decide. -/
def State.setResults (s : State) : State :=
  { s with sensors := Tab.ofFn fun ch => { s.sensors.get ch with result := s.slotResult ch (s.sensorFault ch) } }

end Sys2Proof.Machine
end

