-- ==== Sys2Proof/Machine/Operands.lean ====
section
/-! DEFINITION. The operand forms: how numbers, sets and records stand in bytes (R160), the frame check (R155), and the checks and clamps that
a written record meets before it is staged (R2, R10, R24, R43, R141, R162). -/

namespace Sys2Proof.Machine

open Sys2Proof

/-! ### Numbers in bytes (R160) -/

/-- A number in `n` bytes, most significant byte first. -/
def bytesOf (n x : Nat) : List Byte := (List.range n).map fun i => BitVec.ofNat 8 (x / 256 ^ (n - 1 - i))

/-- A signed number in two bytes, two's complement. -/
def signedBytes (x : Int) : List Byte := bytesOf 2 (x % 65536).toNat

/-- The number in a list of bytes, most significant byte first. -/
def natOf (bytes : List Byte) : Nat := bytes.foldl (fun a b => a * 256 + b.toNat) 0

/-- A two-byte number read as a signed one, two's complement. -/
def signedWord (x : Nat) : Int := if x < 32768 then x else (x : Int) - 65536

/-- The signed number in two bytes. -/
def signedOf (bytes : List Byte) : Int := signedWord (natOf bytes)

/-- A two-byte temperature of a field whose range lies above 0: it is signed, and a negative one, below every such range, is taken as 0, which the clamp
then brings to the lower end as well. -/
def aboveZero (x : Nat) : Nat := (signedWord x).toNat

/-- The numbers in a list of bytes that holds fields of given widths. -/
def fieldsOf : List Nat → List Byte → List Nat
  | [], _ => []
  | w :: ws, bytes => natOf (bytes.take w) :: fieldsOf ws (bytes.drop w)

/-- Fields of given widths, one after the other. -/
def bytesOfFields : List Nat → List Nat → List Byte
  | w :: ws, x :: xs => bytesOf w x ++ bytesOfFields ws xs
  | _, _ => []

/-- A yes or no in one byte: 1 or 0. -/
def boolByte (b : Bool) : Byte := if b then 1 else 0

/-- A loop list of varying length: a count, then four places, unused places 0. -/
def loopListBytes (loops : List LoopNo) : List Byte :=
  BitVec.ofNat 8 loops.length :: (List.range 4).map fun i => BitVec.ofNat 8 ((loops.map Fin.val).getD i 0)

/-! ### The frame check (R155) -/

/-- One bit of the CRC-16 with generator x^16 + x^12 + x^5 + 1. -/
def crcBit (c : BitVec 16) : BitVec 16 := if c.msb then (c <<< 1) ^^^ 0x1021 else c <<< 1

/-- One byte of the CRC-16, most significant bit first. -/
def crcByte (c : BitVec 16) (b : Byte) : BitVec 16 :=
  crcBit (crcBit (crcBit (crcBit (crcBit (crcBit (crcBit (crcBit (c ^^^ (b.setWidth 16 <<< 8)))))))))

/-- R155: the check of a list of bytes. -/
def crc (bytes : List Byte) : BitVec 16 := bytes.foldl crcByte 0xFFFF

/-- R155: the two bytes of a check, high byte first. -/
def checkBytes (bytes : List Byte) : List Byte := bytesOf 2 (crc bytes).toNat

/-! ### Code numbers -/

/-- The code of a master: 0 ROOM, 1 SOURCE, 2 SERVICE (10.3). -/
def masterCode : Master → Byte
  | .room => 0
  | .source => 1
  | .service => 2

/-- The master of a code. -/
def masterOf (code : Byte) : Option Master :=
  match code.toNat with
  | 0 => some .room
  | 1 => some .source
  | 2 => some .service
  | _ => none

/-- The code of a status (R156). -/
def Status.code : Status → Byte
  | .ok => 0
  | .clamped => 1
  | .badKind => 2
  | .badLength => 3
  | .badIndex => 4
  | .notOwner => 5
  | .inUse => 6
  | .noRoom => 7
  | .conflict => 8
  | .full => 9
  | .empty => 10
  | .busy => 11
  | .stillActive => 12
  | .badTarget => 13

/-- 10.5: the bytes of a reply frame. -/
def Reply.bytes (r : Reply) : List Byte :=
  let body := r.status.code :: bytesOf 2 r.pending.toNat ++ BitVec.ofNat 8 r.payload.length :: r.payload
  body ++ checkBytes body

/-- The code of a loop mode (R1). -/
def LoopMode.code : LoopMode → Nat
  | .off => 0
  | .run => 1
  | .follow => 2

/-- The code of a response mode (9.1). -/
def ResponseMode.code : ResponseMode → Nat
  | .latch => 0
  | .retry => 1
  | .report => 2
  | .ignore => 3

/-- The response mode of a code. -/
def responseModeOf : Nat → Option ResponseMode
  | 0 => some .latch
  | 1 => some .retry
  | 2 => some .report
  | 3 => some .ignore
  | _ => none

/-- The code of a safe position (9.1, log 18). -/
def SafePosition.code : SafePosition → Nat
  | .closed => 0
  | .opened => 1
  | .planned => 2
  | .none => 3

/-- The safe position of a code. -/
def safePositionOf : Nat → Option SafePosition
  | 0 => some .closed
  | 1 => some .opened
  | 2 => some .planned
  | 3 => some .none
  | _ => Option.none

/-! ### GENERAL (R24) -/

/-- The widths in bytes of the 27 fields of GENERAL: 36 bytes in all. -/
def generalWidths : List Nat := [1, 1, 1, 2, 1, 1, 1, 1, 2, 2, 2, 2, 1, 1, 1, 1, 1, 2, 2, 1, 1, 1, 1, 2, 2, 1, 1]

/-- The 27 fields of GENERAL in their order. -/
def General.fields (g : General) : List Nat :=
  [g.slotLength, g.minRun, g.startBudget, g.exerciseInterval, g.balanceGain, g.flowStepUp, g.flowStepDown, g.headroom, g.floorCap,
   g.autoCeiling, g.autoFlowMin, g.autoFlowMax, g.demandTimeout, g.sourceTimeout, g.settleCount, g.boostTime, g.holdDuty, g.inrushLimit,
   g.overcurrentThreshold, g.overcurrentTime, g.openLoadThreshold, g.openLoadTime, g.stuckWindow, g.flowWarn, g.flowShutdown,
   g.flowHysteresis, g.retryTime]

/-- The GENERAL record of 27 written fields in their order. Those in tenths of a degree are temperatures, hence signed (R160). -/
def generalOfFields (f : List Nat) : General where
  slotLength := f.getD 0 0
  minRun := f.getD 1 0
  startBudget := f.getD 2 0
  exerciseInterval := f.getD 3 0
  balanceGain := f.getD 4 0
  flowStepUp := f.getD 5 0
  flowStepDown := f.getD 6 0
  headroom := f.getD 7 0
  floorCap := aboveZero (f.getD 8 0)
  autoCeiling := f.getD 9 0
  autoFlowMin := aboveZero (f.getD 10 0)
  autoFlowMax := aboveZero (f.getD 11 0)
  demandTimeout := f.getD 12 0
  sourceTimeout := f.getD 13 0
  settleCount := f.getD 14 0
  boostTime := f.getD 15 0
  holdDuty := f.getD 16 0
  inrushLimit := f.getD 17 0
  overcurrentThreshold := f.getD 18 0
  overcurrentTime := f.getD 19 0
  openLoadThreshold := f.getD 20 0
  openLoadTime := f.getD 21 0
  stuckWindow := f.getD 22 0
  flowWarn := aboveZero (f.getD 23 0)
  flowShutdown := aboveZero (f.getD 24 0)
  flowHysteresis := f.getD 25 0
  retryTime := f.getD 26 0

/-- R24: a GENERAL record brought into its ranges. -/
def clampGeneral (g : General) : General where
  slotLength := clampNat 10 60 g.slotLength
  minRun := clampNat 1 12 g.minRun
  startBudget := clampNat 1 6 g.startBudget
  exerciseInterval := clampNat 96 4000 g.exerciseInterval
  balanceGain := clampNat 1 8 g.balanceGain
  flowStepUp := clampNat 1 20 g.flowStepUp
  flowStepDown := clampNat 1 20 g.flowStepDown
  headroom := clampNat 2 16 g.headroom
  floorCap := clampNat 250 550 g.floorCap
  autoCeiling := clampNat 50 6000 g.autoCeiling
  autoFlowMin := clampNat 200 600 g.autoFlowMin
  autoFlowMax := clampNat 200 600 g.autoFlowMax
  demandTimeout := clampNat 1 16 g.demandTimeout
  sourceTimeout := clampNat 2 48 g.sourceTimeout
  settleCount := clampNat 0 12 g.settleCount
  boostTime := clampNat 10 120 g.boostTime
  holdDuty := clampNat 30 100 (g.holdDuty / 10 * 10)
  inrushLimit := clampNat 100 600 g.inrushLimit
  overcurrentThreshold := clampNat 400 1000 g.overcurrentThreshold
  overcurrentTime := clampNat 1 50 g.overcurrentTime
  openLoadThreshold := clampNat 5 50 g.openLoadThreshold
  openLoadTime := clampNat 5 100 g.openLoadTime
  stuckWindow := clampNat 4 24 g.stuckWindow
  flowWarn := clampNat 300 600 g.flowWarn
  flowShutdown := max (clampNat 350 650 g.flowShutdown) (clampNat 300 600 g.flowWarn + 10)
  flowHysteresis := clampNat 10 100 g.flowHysteresis
  retryTime := clampNat 1 240 g.retryTime

/-- A GENERAL record in bytes. -/
def General.bytes (g : General) : List Byte := bytesOfFields generalWidths g.fields

/-- A GENERAL record read from bytes, as written. -/
def generalOf (bytes : List Byte) : General := generalOfFields (fieldsOf generalWidths bytes)

/-! ### LOOP SETTINGS (R2) -/

/-- A loop's settings in bytes. -/
def LoopSettings.bytes (x : LoopSettings) : List Byte :=
  [BitVec.ofNat 8 x.mode.code, BitVec.ofNat 8 x.weight, BitVec.ofNat 8 x.designSpread, boolByte x.topUpEligible,
   boolByte x.returnSensorPresent, boolByte x.stuckClosedCheck, boolByte x.stuckOpenCheck]

/-- R2: the mode staged for a written mode code. -/
def stagedMode (l : LoopNo) (code : Nat) : LoopMode :=
  match code with
  | 1 => .run
  | 2 => if isEven l then .run else .follow
  | _ => .off

/-- R2: the record staged for seven written codes: mode, weight, design spread, and four yes or no fields, of which any code but 0 is yes. -/
def stagedLoop (l : LoopNo) (f : List Nat) : LoopSettings where
  mode := stagedMode l (f.getD 0 0)
  weight := clampNat 1 250 (f.getD 1 0)
  designSpread := clampNat 20 100 (f.getD 2 0)
  topUpEligible := f.getD 3 0 != 0
  returnSensorPresent := f.getD 4 0 != 0
  stuckClosedCheck := f.getD 5 0 != 0
  stuckOpenCheck := f.getD 6 0 != 0

/-- The seven codes of a loop's settings. -/
def LoopSettings.codes (x : LoopSettings) : List Nat :=
  [x.mode.code, x.weight, x.designSpread, x.topUpEligible.toNat, x.returnSensorPresent.toNat, x.stuckClosedCheck.toNat,
   x.stuckOpenCheck.toNat]

/-! ### ROOMS (R10) -/

/-- A number put into an ascending list. -/
def insertLoop (l : LoopNo) : List LoopNo → List LoopNo
  | [] => [l]
  | x :: xs => if l ≤ x then l :: x :: xs else x :: insertLoop l xs

/-- A loop list in ascending order. -/
def sortLoops (ls : List LoopNo) : List LoopNo := ls.foldr insertLoop []

/-- The loops that a list of bytes names, or none where one is above 23. -/
def loopsNamed (bytes : List Byte) : Option (List LoopNo) :=
  bytes.mapM fun b => if h : b.toNat < 24 then some ⟨b.toNat, h⟩ else none

/-- Whether a list names a loop twice. -/
def hasRepeat : List LoopNo → Bool
  | [] => false
  | x :: xs => xs.contains x || hasRepeat xs

/-- A room's settings in bytes: a loop count, four places, the fallback demand. -/
def RoomSettings.bytes (x : RoomSettings) : List Byte := loopListBytes x.loops ++ [BitVec.ofNat 8 x.fallback]

/-! ### CONVERSION (R43), ROUTES (R162), FAULT RESPONSES (R141) -/

/-- The 17 points of a conversion table in bytes. -/
def conversionBytes (t : Tab 17 Int) : List Byte := t.cells.flatMap signedBytes

/-- The 17 points that 34 bytes hold, as written. -/
def conversionOf (bytes : List Byte) : Tab 17 Int := Tab.ofFn fun i => signedOf ((bytes.drop (2 * i.val)).take 2)

/-- R43: a point brought into -30.0..+95.0 degrees. -/
def clampPoint (t : Int) : Int := clampInt (-300) 950 t

/-- A set of masters in a byte. -/
def MasterSet.byte (m : MasterSet) : Byte := BitVec.ofNat 8 (m.room.toNat + 2 * m.source.toNat + 4 * m.service.toNat)

/-- R162: the set of masters in a byte; bits 3 to 7 are not read. -/
def masterSetOf (b : Byte) : MasterSet := ⟨b.getLsbD 0, b.getLsbD 1, b.getLsbD 2⟩

/-- R140: the modes allowed for a class. -/
def allowedModes (cls : Fin 12) : List ResponseMode :=
  match cls.val with
  | 0 => [.latch, .retry]
  | 1 => [.latch, .retry, .report, .ignore]
  | 2 => [.latch, .retry, .report, .ignore]
  | 3 => [.latch, .retry, .report, .ignore]
  | 4 => [.latch, .retry, .report, .ignore]
  | 5 => [.report, .ignore]
  | 6 => [.report, .ignore]
  | 9 => [.report, .ignore]
  | 10 => [.report, .ignore]
  | _ => [.report]

/-- R140: the positions allowed for a class. -/
def allowedPositions (cls : Fin 12) : List SafePosition :=
  match cls.val with
  | 0 => [.closed]
  | 1 => [.closed, .planned]
  | 2 => [.closed, .planned]
  | 3 => [.closed, .planned]
  | 4 => [.closed, .opened, .planned]
  | _ => [.none]

/-- R141: the record staged for a written mode and position: what is not allowed is replaced by the class's default. -/
def stagedResponse (cls : Fin 12) (mode : Option ResponseMode) (position : Option SafePosition) : FaultResponse where
  mode := match mode with
    | some m => if (allowedModes cls).contains m then m else (defaultResponses.get cls).mode
    | none => (defaultResponses.get cls).mode
  position := match position with
    | some p => if (allowedPositions cls).contains p then p else (defaultResponses.get cls).position
    | none => (defaultResponses.get cls).position

/-- A fault response in bytes, mode and position. -/
def FaultResponse.bytes (r : FaultResponse) : List Byte := [BitVec.ofNat 8 r.mode.code, BitVec.ofNat 8 r.position.code]

/-! ### The stored image (R30, R31) -/

/-- R31: settings brought into the ranges that a write would bring them into. -/
def clampSettings (x : Settings) : Settings where
  general := clampGeneral x.general
  loops := Tab.ofFn fun l => stagedLoop l (x.loops.get l).codes
  rooms := x.rooms.map fun r => { r with fallback := min r.fallback 100 }
  conversion := x.conversion.map clampPoint
  routes := x.routes
  responses := Tab.ofFn fun c => stagedResponse c (some (x.responses.get c).mode) (some (x.responses.get c).position)

/-- R31: the content of a valid image brought into range as it is loaded. -/
def clampContent (c : ImageContent) : ImageContent where
  settings := clampSettings c.settings
  factors := c.factors.map (clampNat 64 1024)
  deadTimes := c.deadTimes.map (clampNat 0 12)

/-- The content of an image in bytes, in the order of R30 (log 17). -/
def ImageContent.bytes (c : ImageContent) : List Byte :=
  c.settings.general.bytes ++ c.settings.loops.cells.flatMap LoopSettings.bytes ++ c.settings.rooms.cells.flatMap RoomSettings.bytes
    ++ conversionBytes c.settings.conversion ++ c.settings.routes.cells.map MasterSet.byte
    ++ c.settings.responses.cells.flatMap FaultResponse.bytes ++ c.factors.cells.flatMap (bytesOf 2)
    ++ c.deadTimes.cells.flatMap (bytesOf 1)

/-- R30: the image check, over all the content and the format mark (log 17). -/
def imageCheck (c : ImageContent) (formatMark : Bool) : BitVec 16 := crc (c.bytes ++ [boolByte formatMark])

/-- R30: whether an image is valid. -/
def Image.valid (i : Image) : Bool := i.formatMark && i.completionMark && i.check == imageCheck i.content i.formatMark

end Sys2Proof.Machine
end

