-- ==== Sys2Proof/Machine/Settings.lean ====
section
/-! DEFINITION. The settings store (2.3 to 2.5): saving, the autosave, adoption and the load of the stored image. -/

namespace Sys2Proof.Machine

open Sys2Proof

/-! ### Saving (R32, R34, R35) -/

/-- R32, step 1: what a save copies. -/
def State.snapshot (s : State) : ImageContent := ⟨s.store.inForce, s.balance.map Balance.factor, s.balance.map Balance.deadTime⟩

/-- R32, steps 1 and 2: a save started: the snapshot, the learned-changed flag and the completion mark. -/
def State.startSave (s : State) (kind : SaveKind) : State :=
  s.onStore fun st =>
    { st with save := some ⟨kind, s.clock.frame, s.snapshot⟩, learnedChanged := false, image := { st.image with completionMark := false } }

/-- R32, steps 3 to 5: the image that a save leaves. Where the verify failed, the content and check are those of before and the image is
invalid (log 17). -/
def savedImage (old : Image) (content : ImageContent) (agrees : Bool) : Image :=
  if agrees then ⟨content, true, imageCheck content true, true⟩ else { old with completionMark := false }

/-- R32, R34: the store at the completion of a save. -/
def Store.complete (st : Store) (save : Save) (agrees : Bool) : Store :=
  { st with
    save := none
    lastResult := if agrees then .ok else .failed
    lastKind := some save.kind
    lastFrame := save.frame
    learnedChanged := if agrees then st.learnedChanged else true
    image := savedImage st.image save.snapshot agrees }

/-- R31, R32: the save in flight ends; `agrees` is the outcome of its verify. Where no save is in flight there is nothing to end. -/
def State.completeSave (s : State) (agrees : Bool) : State :=
  match s.store.save with
  | none => s
  | some save =>
    let s := s.onStore fun st => st.complete save agrees
    let s := if agrees then s.becomeAbsent (.part .storeInvalid) else s
    s.raise .saveDone

/-- R35: an autosave that is due: started, or postponed while a save is in progress. -/
def State.dueAutosave (s : State) : State :=
  if s.store.save.isSome then s.onStore fun st => { st with autosavePostponed := true }
  else (s.startSave .auto).onStore fun st => { st with autosavePostponed := false }

/-- R35: the autosave check: the count becomes 0, and an autosave falls due where the learned-changed flag is set. -/
def State.checkAutosave (s : State) : State :=
  let t := s.onStore fun st => { st with autosaveCount := 0 }
  if s.store.learnedChanged then t.dueAutosave else t

/-- R35: the autosave at a frame end: the count, the check where it would reach 90, and a postponed autosave. -/
def State.frameAutosave (s : State) : State :=
  let postponed := s.store.autosavePostponed
  let s := if 89 ≤ s.store.autosaveCount then s.checkAutosave else s.onStore fun st => { st with autosaveCount := st.autosaveCount + 1 }
  if postponed && s.store.autosavePostponed then s.dueAutosave else s

/-! ### Adoption (R27, R28) -/

/-- R27, R28: the staged settings adopted, with ADOPTED raised through the routes just adopted where some field changed. -/
def State.adopt (s : State) : State :=
  (s.onStore fun st => { st with inForce := st.staged }).raiseIf (s.store.staged != s.store.inForce) .adopted

/-! ### The load (R31) -/

/-- R31: the content that a full reset puts in force. -/
def Image.load (i : Image) : ImageContent := if i.valid then clampContent i.content else defaultContent

/-- R31, R38: the store after a full reset that found image `i`. -/
def loadedStore (i : Image) : Store :=
  { resetStore with staged := i.load.settings, inForce := i.load.settings, image := i, loadValid := i.valid }

end Sys2Proof.Machine
end

