-- ==== Sys2Proof/Machine/Source.lean ====
section
/-! DEFINITION. The source coordinator (08): the posted values, the view and limits put in force at a slot start, the age and the settle. -/

namespace Sys2Proof.Machine

open Sys2Proof

/-! ### POST SOURCE (R128) -/

/-- The optional fields of a post: each absent, or as written. -/
structure SourcePost where
  state : SourceState
  flowTemp : Option Int
  ceiling : Option Nat
  floor : Option Nat
  defrostFloor : Option Nat
  flowMin : Option Nat
  flowMax : Option Nat
deriving DecidableEq, Repr

/-- R128, step 2: a field of a post over its posted value. -/
def postedField (lo hi : Nat) (written : Option Nat) (posted : Nat) : Nat :=
  match written with
  | some x => clampNat lo hi x
  | none => posted

/-- Whether a clamp changed a field of a post. -/
def fieldClamped (lo hi : Nat) (written : Option Nat) : Bool :=
  match written with
  | some x => clampNat lo hi x != x
  | none => false

/-- R128, step 2: the posted floor before step 3. -/
def SourcePost.floorWritten (p : SourcePost) (src : Source) : Nat := postedField 0 3000 p.floor src.floor

/-- R128, step 2: the posted ceiling. -/
def SourcePost.ceilingPosted (p : SourcePost) (src : Source) : Nat := postedField 50 6000 p.ceiling src.ceiling

/-- R128: a post applied to the posted values, the age included. -/
def Source.post (src : Source) (p : SourcePost) : Source :=
  { src with
    posted := some p.state
    flowTemp := match p.flowTemp with
      | some t => some (clampInt (-300) 950 t)
      | none => src.flowTemp
    ceiling := p.ceilingPosted src
    floor := min (p.floorWritten src) (p.ceilingPosted src)
    defrostFloor := postedField 0 3000 p.defrostFloor src.defrostFloor
    flowMin := postedField 200 600 p.flowMin src.flowMin
    flowMax := postedField 200 600 p.flowMax src.flowMax
    age := 0 }

/-- R128: whether a post is answered CLAMPED. -/
def SourcePost.clamped (p : SourcePost) (src : Source) : Bool :=
  (match p.flowTemp with
    | some t => clampInt (-300) 950 t != t
    | none => false)
    || fieldClamped 50 6000 p.ceiling || fieldClamped 0 3000 p.floor || fieldClamped 0 3000 p.defrostFloor
    || fieldClamped 200 600 p.flowMin || fieldClamped 200 600 p.flowMax
    || decide (p.ceilingPosted src < p.floorWritten src)

/-- R128, R131, R134: a post taken: the posted values and the age, the end of SOURCE_SILENT, and the correction for the next slot. -/
def State.takePost (s : State) (p : SourcePost) : State :=
  (({ s with source := s.source.post p } : State).becomeAbsent (.part .sourceSilent)).correctForSource s

/-! ### Slot starts (R132, R135, R136) -/

/-- R136: settling and the slots elapsed at a slot start, from the view of the slot that ended to that of the slot that begins. -/
def settleAt (count : Nat) (old new : View) (settling : Bool) (settled : Nat) : Bool × Nat :=
  if !new.heating then (false, 0)
  else if old.heating then (settling, settled)
  else (decide (0 < count), 0)

/-- R135: the posted flow temperature where it is fresh: the age at the slot start is below the timeout in force, from slot 0 on with an adopted one
(log 33). -/
def State.freshNow (s : State) : Option Int := if s.source.age < s.general.sourceTimeout then s.source.flowTemp else none

/-- R132, R135, R136: the view, the limits, the fresh flow temperature and the settle of the slot that begins. -/
def State.sourceSlotStart (s : State) : State :=
  let settle := settleAt s.general.settleCount s.source.view s.nextView s.source.settling s.source.settled
  { s with source := { s.source with
      view := s.nextView, limits := s.nextLimits, freshTemp := s.freshNow, settling := settle.1, settled := settle.2 } }

/-! ### Slot ends (R131, R136) -/

/-- R131: the age grown at a slot end. -/
def Source.grow (src : Source) : Source := { src with age := min (src.age + 1) 255 }

/-- R136: whether a settle has run its count. -/
def Source.settleOver (src : Source) (count : Nat) : Bool := src.settling && decide (count ≤ src.settled)

/-- R136: a settle that has run its count ended. -/
def Source.endSettle (src : Source) (count : Nat) : Source := if src.settleOver count then { src with settling := false } else src

/-- R136: a settle slot counted at its end. -/
def Source.countSettle (src : Source) (count : Nat) : Source :=
  if src.settling then ({ src with settled := min (src.settled + 1) 12 } : Source).endSettle count else src

/-- R131, R136: the source coordinator's counts at a slot end. -/
def State.sourceSlotEnd (s : State) : State := { s with source := s.source.grow.countSettle s.general.settleCount }

/-- R131: whether SOURCE_SILENT becomes present. -/
def State.sourceDue (s : State) : Bool := !s.present (.part .sourceSilent) && decide (s.general.sourceTimeout ≤ s.source.age)

end Sys2Proof.Machine
end

