-- ==== Sys2Proof/Machine/Boundary.lean ====
section
/-! DEFINITION. The boundaries (R21, R22): the work of a slot end, of a frame end and of a plan reset, and the resets (R36, R37). The order of the
blocks' work inside a boundary is that of log 7. -/

namespace Sys2Proof.Machine

open Sys2Proof

/-! ### Stuck loops and flow thresholds (R146 to R148) -/

/-- R146: the slots since start of a loop's armed stuck-closed check grown at a slot end. -/
def Watch.growCheck (w : Watch) : Watch := { w with check := w.check.map fun c => { c with slots := min (c.slots + 1) 24 } }

/-- R146: whether the return has risen by 1.0 K since the start that armed the check. -/
def State.checkPassed (s : State) (l : LoopNo) : Bool :=
  match (s.watch.get l).check with
  | some c => s.energised l && risen (s.returnReading l) c.startReturn 10
  | none => false

/-- R146: whether an armed check has reached the stuck window without a rise. -/
def State.checkFailed (s : State) (l : LoopNo) : Bool :=
  match (s.watch.get l).check with
  | some c => s.energised l && !risen (s.returnReading l) c.startReturn 10 && decide (s.general.stuckWindow ≤ c.slots)
  | none => false

/-- R147: the VALID returns of a manifold's loops. -/
def State.validReturns (s : State) (m : Manifold) : List Int := (loopsOf m).filterMap s.returnReading

/-- R147: whether the readings of a slot end speak for a stuck-open loop. -/
def State.looksOpen (s : State) (l : LoopNo) : Bool :=
  let m := manifoldOf l
  match s.returnReading l, s.flowReading m with
  | some ret, some flow =>
    !(s.channels.get l).inSlot && decide (flow - ret < 10) && (loopsOf m).any (fun o => o != l && s.energised o)
      && (s.validReturns m).any fun t => decide (30 ≤ flow - t)
  | _, _ => false

/-- R147: whether a loop's stuck-open count is kept. -/
def LoopSettings.watchesOpen (x : LoopSettings) : Bool := x.stuckOpenCheck && x.returnSensorPresent

/-- R146: whether a loop's stuck-closed check can be armed. -/
def LoopSettings.watchesClosed (x : LoopSettings) : Bool := x.stuckClosedCheck && x.returnSensorPresent

/-- R147: a loop's stuck-open count after a slot end. -/
def State.nextOpenCount (s : State) (l : LoopNo) : Nat :=
  if (s.loopSettings l).watchesOpen && s.looksOpen l then min ((s.watch.get l).openCount + 1) 24 else 0

/-- R146, R147: the supervisor's counts of a slot end. -/
def State.growWatches (s : State) : State :=
  { s with watch := Tab.ofFn fun l =>
      let w := if s.energised l then (s.watch.get l).growCheck else s.watch.get l
      { w with openCount := s.nextOpenCount l } }

/-- R147: whether a loop's stuck-open count has reached the window. -/
def State.openReached (s : State) (l : LoopNo) : Bool := decide (s.general.stuckWindow ≤ (s.watch.get l).openCount)

/-- R146: the checks whose loops have warmed are disarmed. -/
def State.disarmPassed (s : State) : State :=
  { s with watch := Tab.ofFn fun l => if s.checkPassed l then { s.watch.get l with check := none } else s.watch.get l }

/-- R148: what a flow reading decides against a threshold: above it present, below it less the hysteresis absent. -/
def flowDecision (reading : Option Int) (threshold hysteresis : Nat) : Option Bool :=
  match reading with
  | none => none
  | some t => if (threshold : Int) < t then some true else if t < (threshold : Int) - hysteresis then some false else none

/-! ### What a slot end decides -/

/-- R146: what a slot end decides for STUCK_CLOSED of a loop. -/
def State.closedDecision (s : State) (l : LoopNo) : Option Bool :=
  if s.checkPassed l then some false else if s.checkFailed l then some true else none

/-- R147: what a slot end decides for STUCK_OPEN of a loop. -/
def State.openDecision (s : State) (l : LoopNo) : Option Bool :=
  if s.openReached l then some true else if (s.watch.get l).openCount = 0 then some false else none

/-- What a slot end decides for a condition (R46, R131, R146 to R148); nothing for the classes that are not decided at slot ends. SOURCE_SILENT
is left to the frame boundary in slot 47 (`State.silenceSource`). -/
def State.slotDecision (s : State) : CondKey → Option Bool
  | .loop .stuckClosed l => s.closedDecision l
  | .loop .stuckOpen l => s.openDecision l
  | .loop .returnSensor l => some (s.sensorFault (returnChannel l))
  | .manifold .flowSensor m => some (s.sensorFault (flowChannel m))
  | .manifold .flowWarn m => flowDecision (s.flowReading m) s.general.flowWarn s.general.flowHysteresis
  | .manifold .flowShutdown m => flowDecision (s.flowReading m) s.general.flowShutdown s.general.flowHysteresis
  | .part .sourceSilent => if s.sourceDue && s.clock.slot != 47 then some true else none
  | _ => none

/-- Whether a condition changes as a slot end decides it, and to what. -/
def State.slotChange (s : State) (key : CondKey) : Option (CondKey × Bool) :=
  match s.slotDecision key with
  | some now => if now = s.present key then none else some (key, now)
  | none => none

/-- R150: the changes of a slot end in class order and then subject order. -/
def State.slotChanges (s : State) : List (CondKey × Bool) := allKeys.filterMap s.slotChange

/-- The changes of a slot end taken. -/
def State.applyChanges (s : State) (changes : List (CondKey × Bool)) : State :=
  changes.foldl (fun s c => s.decideCondition c.1 c.2) s

/-- The supervisor's work of a slot end: the changes of conditions, and the RETRY expiries of R144. Where both fall at one slot end, their order is
a free value (log 8). A recurrence that leaves a RETRY hold's elapsed slots (REPORT, IGNORE) does not keep that hold from expiring after it (log 37). -/
def State.supervise (s : State) : State :=
  let changes := s.slotChanges
  let s := s.disarmPassed
  if s.anyExpiry && !changes.isEmpty && Config.expiriesFirst s.draws then s.expireAll.applyChanges changes
  else (s.applyChanges changes).expireAll

/-! ### The work of a slot end -/

/-- R40: the readings of a slot and its slot results. -/
def State.readSlot (s : State) (codes : Codes) : State := (s.takeReadings codes).setResults

/-- The counts of a slot end: heat and dead slots (R95, R98), measurements (R100), stuck checks (R146, R147), the source (R131, R136) and the RETRY
holds (R144). -/
def State.countSlot (s : State) : State := s.countHeat.advanceMeasurements.growWatches.sourceSlotEnd.growRetries

/-- The work of a slot end after its readings: the counts, the supervisor, and the samples (R96). -/
def State.closeSlot (s : State) : State :=
  let t := s.countSlot.supervise.addSamples s
  { t with draws := t.draws + 1 }

/-- The work of every slot end, before the boundary itself. -/
def State.slotEndWork (s : State) (codes : Codes) : State := (s.readSlot codes).closeSlot

/-- R132, R113, R118: a slot start within a frame. -/
def State.beginSlot (s : State) : State := s.sourceSlotStart.reclampFlow.startSlotChannels

/-- R21: the slot number advanced by one. -/
def State.advanceSlot (s : State) : State := { s with clock := { s.clock with slot := s.clock.slot + 1 } }

/-- R21: the boundary at the end of slot 0..46. -/
def State.slotBoundary (s : State) (codes : Codes) : State := (s.slotEndWork codes).endSlotChannels.advanceSlot.beginSlot

/-! ### The frame end -/

/-- R131, R150: a silence of the source found at the end of slot 47: SOURCE_SILENT becomes present and its fixed action is taken. Its listing waits
for the ROOM_SILENT records of the same instant, which come before it. -/
def State.silenceSource (s : State) : State :=
  let key := CondKey.part .sourceSilent
  if s.sourceDue then (s.putRecord key ((s.record key).apply (s.response key))).actOnPresence s.conds key else s

/-- R143, R150: that silence listed after the rooms of the same instant, as the end of slot 47, `was`, has it. -/
def State.listSilence (s was : State) : State := if was.sourceDue then s.enlistAsOf was (.part .sourceSilent) else s

/-- R72: a loop's idle-frame count at a frame end, under the modes of the frame that ends. -/
def State.nextIdle (s : State) (l : LoopNo) : Nat :=
  let n := (s.plans.get l).idleFrames
  if s.runLeader l then (if (s.channels.get l).inFrame then 0 else min (n + 1) 65535) else n

/-- R72: the idle-frame counts of a frame end. -/
def State.countIdle (s : State) : State := { s with plans := Tab.ofFn fun l => { s.plans.get l with idleFrames := s.nextIdle l } }

/-- R27: the work that closes a frame, under the settings of that frame. -/
def State.closeFrame (s : State) : State := s.closeBalance.totalHeat.countIdle

/-- R7: whether a loop's effective mode is another than under other loop settings. -/
def State.modeChanged (s : State) (before : Tab 24 LoopSettings) (l : LoopNo) : Bool := Machine.effMode before l != s.effMode l

/-- R7: the carry and the idle-frame count of every loop whose effective mode has changed become 0. -/
def State.applyModeChanges (s : State) (before : Tab 24 LoopSettings) : State :=
  { s with
    duty := Tab.ofFn fun l => if s.modeChanged before l then { s.duty.get l with carry := 0 } else s.duty.get l
    plans := Tab.ofFn fun l => if s.modeChanged before l then { s.plans.get l with idleFrames := 0 } else s.plans.get l }

/-- R146, R147: a loop whose stuck checks the adopted settings leave off: the check is disarmed, the count is 0, and a present condition ends. What its
end raises goes by the routes just adopted (log 35). -/
def State.adoptChecks (s : State) (l : LoopNo) : State :=
  let x := s.loopSettings l
  let s := if x.watchesClosed then s else (s.onWatch l fun w => { w with check := none }).becomeAbsent (.loop .stuckClosed l)
  if x.watchesOpen then s else (s.onWatch l fun w => { w with openCount := 0 }).becomeAbsent (.loop .stuckOpen l)

/-- R145: the holds that the adopted modes bring to a loop, or take from it, at its channel. -/
def State.reachChange (before : Tab 24 LoopSettings) (s : State) (l : LoopNo) : State := s.channelForHold l (loopHold before s.conds l)

/-- R22: a new frame begun at slot 0. -/
def State.newFrame (s : State) : State := { s with clock := { s.clock with slot := 0, frame := s.clock.frame + 1 } }

/-- R27: adoption at a frame end, with what the adopted modes and checks change, and the autosave of R35. -/
def State.adoptFrame (s : State) : State :=
  let before := s.store.inForce.loops
  let s := (s.adopt.applyModeChanges before).newFrame
  let s := (allLoops.foldl State.adoptChecks s).frameAutosave
  allLoops.foldl (State.reachChange before) s

/-- R74: whether a run energises a channel. -/
def Channel.byRun (c : Channel) : Bool := c.energised && (c.state == .boost || c.state == .hold)

/-- R74: whether a loop is continuing into the frame that begins, `before` being the loop settings of the frame that ends. -/
def State.continues (s : State) (before : Tab 24 LoopSettings) (l : LoopNo) : Bool :=
  s.runLeader l && !s.modeChanged before l && (s.run l).covers 47 && (s.channels.get l).byRun
    && (!s.drivesFollower l || (s.channels.get (partner l)).byRun) && !(s.hold l).holdsOut

/-- R72: no channel has been energised yet in the frame that begins. -/
def State.clearFrameMarks (s : State) : State := { s with channels := s.channels.map fun c => { c with inFrame := false } }

/-- R19, R91, R95, R111: what a plan reset clears: every channel is de-energised, the carries and the ring pointer become 0, and the accumulators
and dead slots of every loop become 0. -/
def State.clearForReset (s : State) : State :=
  let s := s.resetChannels.clearCarries
  { s with
    planner := { s.planner with ring := 0 }
    balance := s.balance.map Balance.planReset
    clock := { s.clock with resetPlan := false } }

/-- The placement of a new frame and the start of its slot 0 at the channels. -/
def State.beginFrame (s : State) (cont : Tab 24 Bool) : State :=
  let s := (s.clearFrameMarks.place cont false).frameChannels
  ({ s with channels := s.channels.map (Channel.enterHold s.general) } : State).startSlotChannels

/-- R21, R22: what a frame end does before the new frame's plan: the frame closed, the settings adopted, the rooms aged, the view and limits of
slot 0. -/
def State.openFrame (s : State) : State :=
  (s.silenceSource.endLastSlotChannels.closeFrame.adoptFrame.ageRooms.listSilence s).sourceSlotStart

/-- R21, R22: the frame end after the work of slot 47. A RESET PLAN waiting for it is carried out here. -/
def State.frameBoundary (s : State) : State :=
  let before := s.store.inForce.loops
  let s := s.openFrame
  let cont := if s.clock.resetPlan then Tab.fill 24 false else Tab.ofFn (s.continues before)
  let s := if s.clock.resetPlan then s.clearForReset else s
  s.computeDuty.stepFlow.beginFrame cont

/-- R21: the boundary at the end of slot 47. -/
def State.frameEnd (s : State) (codes : Codes) : State := (s.slotEndWork codes).frameBoundary

/-- R91: the boundary, at the end of slot 0..46, at which a RESET PLAN is carried out. -/
def State.planReset (s : State) (codes : Codes) : State :=
  let s := (s.slotEndWork codes).newFrame.sourceSlotStart.clearForReset
  s.computeDuty.reclampFlow.beginFrame (.fill 24 false)

/-! ### Resets (R36, R37) -/

/-- R138: the source coordinator after a full reset with a GENERAL record. -/
def loadedSource (g : General) : Source :=
  let src := { resetSource with ceiling := g.autoCeiling, flowMin := g.autoFlowMin, flowMax := g.autoFlowMax }
  { src with limits := limitsOf g src .fallback }

/-- R36 to R38: every block started from the image that the load finds, before the supply is looked at and frame 0 is placed. -/
def State.loaded (s : State) : State :=
  let i := s.store.image
  let c := i.load
  let src := loadedSource c.settings.general
  { State.reset with
    store := loadedStore i
    balance := Tab.ofFn fun l => freshBalance (c.factors.get l) (c.deadTimes.get l)
    conds := if i.valid then freshConditions else storeInvalidConditions
    faults := ⟨if i.valid then [] else [storeInvalidEntry], false⟩
    source := src
    flowRequest := src.limits.flowLow
    draws := s.draws
    pending := s.pending }

/-- R120: the supply state LOW: SUPPLY blocks every channel, and SUPPLY_LOW becomes present. -/
def State.loseSupply (s : State) : State :=
  let s : State := { s with supply := { s.supply with low := true } }
  (allLoops.foldl (fun s l => s.block l .supply) s).becomePresent (.part .supplyLow)

/-- R121: the supply state NORMAL: SUPPLY_LOW ends, and SUPPLY leaves every channel. -/
def State.regainSupply (s : State) : State :=
  let s : State := { s with supply := { s.supply with low := false } }
  allLoops.foldl (fun s l => s.unblock l .supply) (s.becomeAbsent (.part .supplyLow))

/-- R36, R37, R127: a full reset with the actuator supply at `millivolts`. -/
def State.fullReset (s : State) (millivolts : Nat) : State :=
  let s := s.loaded
  let s := if 21000 < millivolts then s else s.loseSupply
  (s.computeDuty.place (.fill 24 false) true).startSlotChannels

/-- R36: a channel in the reset hold: de-energised, and, the model's choice, IDLE with no block cause (log 20). -/
def Channel.heldInReset (c : Channel) : Channel :=
  { c.undriven with state := .idle, causes := noCauses, pendingFor := .restart }

/-- R36: the part held in reset: channels de-energised, ports empty, a save in flight abandoned. The attention lines are released, since the part
does not run (`State.attention`). -/
def State.holdInReset (s : State) : State :=
  { s with
    mode := .held
    restartPending := false
    ports := .all freshPort
    channels := s.channels.map Channel.heldInReset
    store := { s.store with save := none } }

end Sys2Proof.Machine
end

