-- ==== Sys2Proof/Machine/Tables.lean ====
section
/-! DEFINITION. The records that READ TABLE returns, byte by byte (10.4, 10.5, R160), and the packing of a reply (R158). -/

namespace Sys2Proof.Machine

open Sys2Proof

/-! ### Bytes -/

/-- A number in one byte. -/
def byte (n : Nat) : Byte := BitVec.ofNat 8 n

/-- A number in two bytes. -/
def word (n : Nat) : List Byte := bytesOf 2 n

/-- An absent number reads 0 (R160). -/
def signedOrZero (x : Option Int) : List Byte := signedBytes (x.getD 0)

/-- Flags in one byte, the first in bit 0. -/
def flagByte (flags : List Bool) : Byte := byte (flags.foldr (fun b n => b.toNat + 2 * n) 0)

/-! ### Codes of named values, in the order their fields list them (R160) -/

def EffMode.code : EffMode → Nat
  | .off => 0
  | .single => 1
  | .leader => 2
  | .following => 3

def Origin.code : Origin → Nat
  | .posted => 0
  | .fallback => 1
  | .none => 2

def RunKind.code : RunKind → Nat
  | .none => 0
  | .pinned => 1
  | .ordinary => 2
  | .exercise => 3
  | .topUp => 4

def EndCause.code : EndCause → Nat
  | .asPlaced => 0
  | .trimmed => 1
  | .removed => 2
  | .fault => 3
  | .sourceOff => 4

/-- The loop hold of LOOP STATE, offset 28: NONE, CLOSED, OPEN, PLANNED. -/
def SafePosition.holdCode : SafePosition → Nat
  | .none => 0
  | .closed => 1
  | .opened => 2
  | .planned => 3

def ChannelState.code : ChannelState → Nat
  | .idle => 0
  | .pending => 1
  | .boost => 2
  | .hold => 3
  | .safeOpen => 4
  | .blocked => 5

def DrivePhase.code : DrivePhase → Nat
  | .none => 0
  | .boost => 1
  | .hold => 2

def PendingFor.code : PendingFor → Nat
  | .restart => 0
  | .safeOpen => 1

def SlotResult.code : SlotResult → Nat
  | .valid _ => 0
  | .stale => 1
  | .none => 2
  | .absent => 3
  | .substituted _ => 4

def View.code : View → Nat
  | .heat => 0
  | .dhw => 1
  | .defrost => 2
  | .off => 3
  | .fallback => 4

/-- The posted state of R137: NONE, HEAT, DHW, DEFROST, OFF. -/
def postedCode : Option SourceState → Nat
  | none => 0
  | some .heat => 1
  | some .dhw => 2
  | some .defrost => 3
  | some .off => 4

def DemandState.code : DemandState → Nat
  | .none => 0
  | .fresh => 1
  | .stale => 2

def EntryState.code : EntryState → Nat
  | .active => 0
  | .waiting => 1
  | .held => 2
  | .past => 3

def BalanceOutcome.code : BalanceOutcome → Nat
  | .updated => 0
  | .tooFew => 1
  | .relearned => 2
  | .held => 3
  | .notLeader => 4

def SaveResult.code : SaveResult → Nat
  | .none => 0
  | .ok => 1
  | .failed => 2

def saveKindCode : Option SaveKind → Nat
  | none => 0
  | some .manual => 1
  | some .auto => 2

/-! ### Settings tables -/

/-- The settings of a view: STAGED or IN_FORCE. -/
def State.viewed (s : State) (inForce : Bool) : Settings := if inForce then s.store.inForce else s.store.staged

/-- R25: the status part of GENERAL. -/
def State.statusBytes (s : State) : List Byte :=
  let st := s.store
  [byte st.inForce.general.slotLength, byte s.clock.slot.val] ++ word s.clock.frame.val
    ++ [boolByte (!st.loadValid), boolByte st.save.isSome, byte st.lastResult.code, byte (saveKindCode st.lastKind)]
    ++ word st.lastFrame.val ++ [boolByte st.learnedChanged, byte st.autosaveCount, boolByte st.autosavePostponed]

/-- R8: a room record of a view. -/
def State.roomBytes (s : State) (v : Settings) (r : Fin 16) : List Byte :=
  let x := s.rooms.get r
  (v.rooms.get r).bytes ++ [byte x.posted, byte x.state.code, byte x.age]

/-- R12: a pin record. -/
def Pin.bytes (p : Pin) : List Byte := boolByte p.isSet :: loopListBytes p.loops ++ [byte p.start, byte p.length]

/-! ### The loop and plan tables -/

/-- The run that a loop's record shows: its own, or for a follower its leader's (R69). -/
def State.shownRun (s : State) (l : LoopNo) : Run := s.run (s.planLoop l)

/-- The slots a run record shows: 0 and 0 when its kind is NONE (R92). -/
def Run.slotBytes (r : Run) : List Byte := if r.kind = .none then [0, 0] else [byte r.first, byte r.last]

/-- Whether a loop's condition of a class is present. -/
def State.loopPresent (s : State) (l : LoopNo) (c : LoopClass) : Bool := s.present (.loop c l)

/-- 10.5: the stuck-check fields of LOOP STATE, offsets 21 to 26 (log 16). -/
def stuckBytes : Option StuckCheck → List Byte
  | none => boolByte false :: word 0 ++ word 0 ++ [0]
  | some c => boolByte true :: signedBytes c.startReturn ++ signedBytes c.startFlow ++ [byte c.slots]

/-- 10.5: a LOOP STATE record. -/
def State.loopStateBytes (s : State) (l : LoopNo) : List Byte :=
  let d := s.duty.get l
  let p := s.plans.get l
  let r := s.shownRun l
  let b := s.balance.get l
  let w := s.watch.get l
  let c := s.channels.get l
  [byte l.val, byte (s.effMode l).code, byte d.demand, byte d.origin.code, byte d.rho, byte d.carry, byte d.clipped, byte r.kind.code]
    ++ r.slotBytes
    ++ [flagByte [p.flags.deferred, p.flags.shortened, p.flags.overweight, p.flags.demoted, b.limitHigh, b.limitLow, r.continuation,
      b.relearned]]
    ++ word p.idleFrames ++ bytesOf 3 b.sum ++ [byte b.count, byte b.deadSlots] ++ word b.factor ++ [byte b.deadTime]
    ++ stuckBytes w.check
    ++ [byte w.openCount, byte (s.hold l).holdCode,
      flagByte [s.loopPresent l .driveOvercurrent, s.loopPresent l .driveOpen, s.loopPresent l .stuckClosed, s.loopPresent l .stuckOpen,
        s.loopPresent l .returnSensor],
      byte c.state.code, byte c.phase.code, flagByte [c.causes.fault, c.causes.shutdown, c.causes.supply], byte c.pendingFor.code]
    ++ word c.boostElapsed ++ word c.limited

/-- 10.5: a PLAN BY SLOT record. -/
def State.planSlotBytes (s : State) (t : Fin 48) : List Byte :=
  let p := s.slots.get t
  byte t.val :: word p.weight
    ++ [byte p.starts, byte (if t = s.clock.slot then s.supply.extraStarts else 0), boolByte p.short] ++ bytesOf 3 p.openSet.toNat

/-- R92: a PLAN BY LOOP record. Field 10 shows the OPEN hold as it stands when the request is taken, from the slot of detection on (log 38). -/
def State.planLoopBytes (s : State) (l : LoopNo) : List Byte :=
  let r := s.shownRun l
  let f := (s.plans.get l).flags
  [byte l.val, byte r.kind.code] ++ r.slotBytes
    ++ [boolByte r.continuation, byte r.sequence, byte r.endCause.code, byte r.placedLength,
      flagByte [f.deferred, f.shortened, f.overweight, f.demoted], boolByte (s.hold l == .opened)]

/-! ### The other tables of the part -/

/-- R50: a SENSORS record. -/
def State.sensorBytes (s : State) (ch : Fin 26) : List Byte :=
  let x := s.sensors.get ch
  byte ch.val :: word x.lastCode.toNat ++ [byte x.result.code] ++ signedOrZero x.result.reading
    ++ [boolByte x.lastValid.isSome] ++ signedOrZero x.lastValid
    ++ [boolByte x.stale, byte x.invalidRun, byte x.validRun, boolByte (s.present (sensorKey ch))]

/-- R137: the SOURCE record. -/
def State.sourceBytes (s : State) : List Byte :=
  let src := s.source
  let lim := src.limits
  [byte src.view.code, byte (postedCode src.posted), byte src.age, boolByte (s.present (.part .sourceSilent)), boolByte src.settling,
    byte src.settled]
    ++ word lim.ceiling ++ [boolByte lim.floorApplies] ++ word lim.floor ++ word lim.flowLow ++ word lim.flowHigh ++ word s.flowRequest
    ++ word src.ceiling ++ word src.floor ++ word src.defrostFloor ++ word src.flowMin ++ word src.flowMax
    ++ [boolByte src.flowTemp.isSome] ++ signedOrZero src.flowTemp ++ [boolByte src.freshTemp.isSome, byte s.planner.shortCount]
    ++ word s.heat.frame.val ++ bytesOf 4 s.heat.manifoldA ++ bytesOf 4 s.heat.manifoldB ++ bytesOf 4 s.heat.house

/-- 10.5: a fault entry. -/
def State.entryBytes (s : State) (e : FaultEntry) : List Byte :=
  [byte e.key.classNo.val, byte e.key.subjectNo, byte (s.record e.key).entryState.code] ++ word e.firstFrame.val ++ [byte e.firstSlot.val]
    ++ word e.lastFrame.val ++ [byte e.count]

/-- R103: a CAPTURES record. -/
def State.captureBytes (s : State) (l : LoopNo) : List Byte :=
  let b := s.balance.get l
  let c := b.capture
  [byte l.val, boolByte c.full, byte c.measured] ++ word c.frame.val ++ [byte c.slot.val] ++ signedBytes c.startReturn
    ++ match b.measurement with
      | none => [0, 0] ++ word 0
      | some m => [1, byte m.slots] ++ signedBytes m.startReturn

/-- R108, R110: the report of a loop. -/
def State.reportBytes (s : State) (l : LoopNo) : List Byte :=
  let r := (s.balance.get l).report
  byte l.val :: word r.frame.val ++ [byte r.outcome.code] ++ bytesOf 3 r.sum ++ [byte r.count] ++ word r.average ++ bytesOf 3 r.heat
    ++ word r.before ++ word r.after

/-- R110: how many of some loops were UPDATED at the last frame end. -/
def State.updatedOf (s : State) (loops : List LoopNo) : Nat := loops.countP fun l => (s.balance.get l).report.outcome == .updated

/-- R110: a totals record. -/
def State.totalBytes (s : State) (heat : Nat) (loops : List LoopNo) : List Byte :=
  word s.heat.frame.val ++ bytesOf 4 heat ++ [byte (s.updatedOf loops)]

/-- R110: the FRAME REPORT records, loops, rooms, manifolds and house. -/
def State.frameReport (s : State) : List (List Byte) :=
  allLoops.map s.reportBytes
    ++ allRooms.map (fun r => byte r.val :: word s.heat.frame.val ++ bytesOf 4 (s.rooms.get r).heat)
    ++ [s.totalBytes s.heat.manifoldA (loopsOf .a), s.totalBytes s.heat.manifoldB (loopsOf .b), s.totalBytes s.heat.house allLoops]

/-! ### READ TABLE (R158) -/

/-- 10.4: the tables, in the order of their ids. -/
inductive Table where
  | general
  | loopSettings
  | rooms
  | pins
  | loopState
  | planBySlot
  | planByLoop
  | sensors
  | source
  | faults
  | captures
  | frameReport
  | conversion
  | routes
  | responses
deriving DecidableEq, Repr

/-- 10.4: the tables by id. -/
def tableList : List Table :=
  [.general, .loopSettings, .rooms, .pins, .loopState, .planBySlot, .planByLoop, .sensors, .source, .faults, .captures, .frameReport,
   .conversion, .routes, .responses]

/-- 10.4: the table of an id. -/
def tableOf (id : Nat) : Option Table := tableList[id]?

/-- R158, step 2: whether a table has views. -/
def Table.hasViews : Table → Bool
  | .general => true
  | .loopSettings => true
  | .rooms => true
  | .conversion => true
  | .routes => true
  | .responses => true
  | _ => false

/-- The records of a table, in index order, in the view asked for. -/
def State.recordsOf (s : State) (table : Table) (inForce : Bool) : List (List Byte) :=
  let v := s.viewed inForce
  match table with
  | .general => [v.general.bytes, s.statusBytes]
  | .loopSettings => v.loops.cells.map LoopSettings.bytes
  | .rooms => allRooms.map (s.roomBytes v)
  | .pins => s.pins.cells.map Pin.bytes
  | .loopState => allLoops.map s.loopStateBytes
  | .planBySlot => (List.finRange 48).map s.planSlotBytes
  | .planByLoop => allLoops.map s.planLoopBytes
  | .sensors => (List.finRange 26).map s.sensorBytes
  | .source => [s.sourceBytes]
  | .faults => s.faults.entries.map s.entryBytes
  | .captures => allLoops.map s.captureBytes
  | .frameReport => s.frameReport
  | .conversion => [conversionBytes v.conversion]
  | .routes => v.routes.cells.map fun m => [m.byte]
  | .responses => (List.finRange 12).map fun c => byte c.val :: (v.responses.get c).bytes

/-- R152: the header of FAULTS. -/
def State.headerOf (s : State) (table : Table) : List Byte :=
  match table with
  | .faults => [boolByte s.faults.overflow, byte s.faults.entries.length]
  | _ => []

/-- R158: the records taken into a reply: while the count asked for is not reached and the next whole record keeps within `room` bytes. -/
def takeRecords (count room : Nat) : List (List Byte) → List (List Byte)
  | [] => []
  | r :: rs =>
    match count with
    | 0 => []
    | count + 1 => if r.length ≤ room then r :: takeRecords count (room - r.length) rs else []

/-- R158: the largest first index that a table takes: one below the number of records, but for FAULTS, where the number itself is taken. -/
def indexTaken (table : Table) (first records : Nat) : Bool := decide (first < records) || (table == .faults && first == records)

/-- R158: the payload of a reply: the first index, the number of records returned, the header of FAULTS, and the records. -/
def State.tablePayload (s : State) (table : Table) (inForce : Bool) (first count : Nat) : List Byte :=
  let header := s.headerOf table
  let records := takeRecords count (46 - header.length) ((s.recordsOf table inForce).drop first)
  [byte first, byte records.length] ++ header ++ records.flatten

end Sys2Proof.Machine
end

