-- ==== Sys2Proof/Machine/Requests.lean ====
section
/-! DEFINITION. Taking a request at a port (10.2, 10.3): the checks, the status and the effects of each kind, and the reply. -/

namespace Sys2Proof.Machine

open Sys2Proof

/-- What taking a request comes to: the status and payload of its reply, and the state after its effects. -/
structure Taken where
  status : Status
  payload : List Byte
  state : State
deriving DecidableEq, Repr

/-- A request refused: no effect (R156). -/
def refuse (status : Status) (s : State) : Taken := ⟨status, [], s⟩

/-- A request taken with a status and no reply payload (R157). -/
def taken (status : Status) (s : State) : Taken := ⟨status, [], s⟩

/-- R156: OK, or CLAMPED where a value was brought into range. -/
def clampStatus (clamped : Bool) : Status := if clamped then .clamped else .ok

/-- A port changed. -/
def State.setPort (s : State) (m : Master) (p : Port) : State := { s with ports := s.ports.set m p }

/-- What the notice unit holds for a master, changed. -/
def State.setNotices (s : State) (m : Master) (n : Notices) : State := { s with notices := s.notices.set m n }

/-- R157: the reply built after the effects, with the sender's pending set as it then stands. -/
def Taken.reply (t : Taken) (m : Master) : Reply := ⟨t.status, (t.state.notices.get m).pending, t.payload⟩

/-- R157: a request answered: its effects, and the port REPLYING with an empty buffer. -/
def Taken.answer (t : Taken) (m : Master) : State := t.state.setPort m ⟨.replying, [], false, some (t.reply m)⟩

/-- Whether a port takes a request: the part runs (R36), and the port is not REPLYING (R154). -/
def State.takes (s : State) (m : Master) : Bool := s.mode == .running && (s.ports.get m).state != .replying

/-- R154, R156: a request at a port: taken and answered, or, where its bytes are discarded, nothing. -/
def State.serve (s : State) (m : Master) (request : State → Taken) : State := if s.takes m then (request s).answer m else s

/-- R156, step 2: a request of a kind that one master owns. -/
def owned (owner m : Master) (request : State → Taken) (s : State) : Taken := if m = owner then request s else refuse .notOwner s

/-- R156, step 3: a request of an allowed payload length. -/
def sized (allowed : Bool) (request : State → Taken) (s : State) : Taken := if allowed then request s else refuse .badLength s

/-- R36: an event that reaches a part held in reset finds nothing at work. -/
def State.whileRunning (s : State) (effect : State → State) : State := if s.mode = .running then effect s else s

/-! ### Frames on the line (R154) -/

/-- R154: a byte on a port. The 52 places of the buffer are the largest request frame. -/
def Port.receive (p : Port) (b : Byte) (stopGood : Bool) : Port :=
  match p.state with
  | .idle => ⟨.receiving, [b], !stopGood, none⟩
  | .receiving =>
    if p.buffer.length < 52 then { p with buffer := p.buffer ++ [b], malformed := p.malformed || !stopGood }
    else { p with malformed := true }
  | .replying => p

/-- R154, steps 1 to 4: whether the bytes of a frame are a request. -/
def wellFramed (frame : List Byte) : Bool :=
  let length := (frame.getD 1 0).toNat
  decide (4 ≤ frame.length) && decide (length ≤ 48) && frame.length == length + 4
    && frame.drop (length + 2) == checkBytes (frame.take (length + 2))

/-- R154: whether the frame that a port has collected is a request. -/
def Port.hasRequest (p : Port) : Bool := !p.malformed && wellFramed p.buffer

/-- 10.5: the kind of a request frame. -/
def frameKind (frame : List Byte) : Byte := frame.getD 0 0

/-- 10.5: the payload of a request frame. -/
def framePayload (frame : List Byte) : List Byte := (frame.drop 2).take (frame.length - 4)

/-! ### Tables (R158) -/

/-- R158, steps 2 and 3, and the reply. -/
def readRecords (table : Table) (view first count : Nat) (s : State) : Taken :=
  if table.hasViews && decide (1 < view) then refuse .badIndex s
  else if indexTaken table first (s.recordsOf table (view == 1)).length then ⟨.ok, s.tablePayload table (view == 1) first count, s⟩
  else refuse .badIndex s

/-- R158: READ TABLE. -/
def requestReadTable (payload : List Byte) (s : State) : Taken :=
  match payload with
  | [id, view, first, count] =>
    match tableOf id.toNat with
    | none => refuse .badIndex s
    | some table => readRecords table view.toNat first.toNat count.toNat s
  | _ => refuse .badLength s

/-! ### Notices and mail (11) -/

/-- A 2-byte kind set; bits 12 to 15 are not read (R163). -/
def kindSetOf (payload : List Byte) : KindSet := BitVec.ofNat 12 (natOf payload)

/-- R163: ENABLE NOTICES. -/
def requestEnable (m : Master) (payload : List Byte) : State → Taken :=
  sized (payload.length == 2) fun s =>
    taken .ok (s.setNotices m { s.notices.get m with enabled := kindSetOf payload })

/-- R163: the kinds that an ACK NOTICES removes: all it names but MAIL. -/
def ackedKinds (payload : List Byte) : KindSet := kindSetOf payload &&& ~~~Kind.mail.bit

/-- R163: ACK NOTICES. -/
def requestAck (m : Master) (payload : List Byte) : State → Taken :=
  sized (payload.length == 2) fun s =>
    taken .ok (s.setNotices m { s.notices.get m with pending := (s.notices.get m).pending &&& ~~~ackedKinds payload })

/-- The 16-bit words in a list of bytes. -/
def wordsOf : List Byte → List (BitVec 16)
  | hi :: lo :: rest => (hi ++ lo) :: wordsOf rest
  | _ => []

/-- R165: a message at the tail of a queue, which makes MAIL pending (R166). -/
def Notices.deliver (n : Notices) (mail : Mail) : Notices := { n with mail := n.mail ++ [mail], pending := n.pending ||| Kind.mail.bit }

/-- R165: POST MAIL past its length check. -/
def postMailTo (m : Master) (recipient : Byte) (words : List Byte) (s : State) : Taken :=
  match masterOf recipient with
  | none => refuse .badTarget s
  | some addressee =>
    if addressee = m then refuse .badTarget s
    else if 2 ≤ (s.notices.get addressee).mail.length then refuse .full s
    else taken .ok (s.setNotices addressee ((s.notices.get addressee).deliver ⟨m, wordsOf words⟩))

/-- R165: POST MAIL. -/
def requestPostMail (m : Master) (payload : List Byte) (s : State) : Taken :=
  match payload with
  | recipient :: words =>
    if words.length == 2 || words.length == 4 || words.length == 6 || words.length == 8 then postMailTo m recipient words s
    else refuse .badLength s
  | [] => refuse .badLength s

/-- R166: a message in a reply: its sender's code, then its words. -/
def Mail.bytes (x : Mail) : List Byte := masterCode x.sender :: x.words.flatMap fun w => bytesOf 2 w.toNat

/-- R166: a queue after its oldest message is taken: MAIL leaves the pending set where it is then empty. -/
def Notices.afterTake (n : Notices) (rest : List Mail) : Notices :=
  { n with mail := rest, pending := if rest.isEmpty then n.pending &&& ~~~Kind.mail.bit else n.pending }

/-- R166: TAKE MAIL. -/
def requestTakeMail (m : Master) (payload : List Byte) : State → Taken :=
  sized (payload.length == 0) fun s =>
    match (s.notices.get m).mail with
    | [] => refuse .empty s
    | x :: rest => ⟨.ok, x.bytes, s.setNotices m ((s.notices.get m).afterTake rest)⟩

/-! ### Demand (R52, R53) -/

/-- The pairs of a POST DEMAND payload: room and demand as written. -/
def demandPairs : List Byte → List (Nat × Nat)
  | room :: demand :: rest => (room.toNat, demand.toNat) :: demandPairs rest
  | _ => []

/-- R53, R54: one pair taken: the room is FRESH with age 0, and its ROOM_SILENT condition ends. -/
def State.postRoom (s : State) (room demand : Nat) : State :=
  if h : room < 16 then
    (s.onRoom ⟨room, h⟩ fun r => { r with posted := min demand 100, state := .fresh, age := 0 }).becomeAbsent (.room ⟨room, h⟩)
  else s

/-- R52: POST DEMAND. -/
def requestDemand (m : Master) (payload : List Byte) : State → Taken :=
  owned .room m <| sized (payload.length % 2 == 0 && decide (2 ≤ payload.length) && decide (payload.length ≤ 16)) fun s =>
    let pairs := demandPairs payload
    if pairs.any (fun p => decide (15 < p.1)) then refuse .badIndex s
    else taken (clampStatus (pairs.any fun p => decide (100 < p.2))) (pairs.foldl (fun s p => s.postRoom p.1 p.2) s)

/-! ### Pins (R13 to R16) -/

/-- Whether a loop's mode in force is RUN (R13, step 6). -/
def State.modeRun (s : State) (l : LoopNo) : Bool := (s.loopSettings l).mode == .run

/-- Whether a loop stands in a SET pin other than one (R14, step 1). -/
def State.pinnedElsewhere (s : State) (pin : Fin 6) (l : LoopNo) : Bool :=
  (List.finRange 6).any fun i => i != pin && (s.pins.get i).isSet && (s.pins.get i).loops.contains l

/-- R14: the set P: the loops that would be pinned if a pin took a new list. -/
def State.pinSet (s : State) (pin : Fin 6) (loops : List LoopNo) : List LoopNo :=
  allLoops.filter fun l => loops.contains l || s.pinnedElsewhere pin l

/-- R14: the sum of the pair weights of some loops. -/
def State.pairWeights (s : State) (loops : List LoopNo) : Nat := loops.foldl (fun w l => w + s.pairWeight l) 0

/-- R14, step 2: whether a new list leaves no room. -/
def State.noPinRoom (s : State) (pin : Fin 6) (loops : List LoopNo) : Bool :=
  let p := s.pinSet pin loops
  decide (5 * s.source.limits.ceiling / 8 < s.pairWeights p) || allLoops.all fun l => !s.runLeader l || p.contains l

/-- R15: the length stored for a written one. -/
def pinLength (start length : Nat) : Nat := clampNat 1 (48 - start) length

/-- R15: a pin set. -/
def State.putPin (s : State) (pin : Fin 6) (loops : List LoopNo) (start length : Nat) : State :=
  { s with pins := s.pins.set pin ⟨true, sortLoops loops, start, pinLength start length⟩ }

/-- R14, R15: SET PIN past the checks of R13. -/
def setPinChecked (pin : Fin 6) (start length : Nat) (loops : List LoopNo) (s : State) : Taken :=
  if loops.any (s.pinnedElsewhere pin) then refuse .inUse s
  else if s.noPinRoom pin loops then refuse .noRoom s
  else taken (clampStatus (pinLength start length != length)) (s.putPin pin loops start length)

/-- R13, steps 2 to 6: SET PIN with 1..4 loop bytes. -/
def setPinNamed (pin start length : Nat) (loops : List Byte) (s : State) : Taken :=
  if h : pin < 6 then
    if 47 < start then refuse .badIndex s
    else match loopsNamed loops with
      | none => refuse .badIndex s
      | some ls => if hasRepeat ls || ls.any (fun l => !s.modeRun l) then refuse .badIndex s else setPinChecked ⟨pin, h⟩ start length ls s
  else refuse .badIndex s

/-- R13 to R15: SET PIN. -/
def requestSetPin (m : Master) (payload : List Byte) : State → Taken :=
  owned .room m fun s =>
    match payload with
    | pin :: start :: length :: loops =>
      if loops.isEmpty || decide (4 < loops.length) then refuse .badLength s
      else setPinNamed pin.toNat start.toNat length.toNat loops s
    | _ => refuse .badLength s

/-- R16: DROP PIN. -/
def requestDropPin (m : Master) (payload : List Byte) : State → Taken :=
  owned .room m fun s =>
    match payload with
    | [pin] => if h : pin.toNat < 6 then taken .ok { s with pins := s.pins.set ⟨pin.toNat, h⟩ freePin } else refuse .badIndex s
    | _ => refuse .badLength s

/-! ### Source (R128) -/

/-- 10.5: the state of a POST SOURCE code. -/
def sourceStateOf (code : Nat) : Option SourceState :=
  match code with
  | 1 => some .heat
  | 2 => some .dhw
  | 3 => some .defrost
  | 4 => some .off
  | _ => none

/-- 10.5: the fields of a POST SOURCE payload after its first two bytes, for the presence marks `marks`, each 2 bytes where present. -/
def postFields : List Bool → List Byte → List (Option (List Byte))
  | [], _ => []
  | true :: marks, bytes => some (bytes.take 2) :: postFields marks (bytes.drop 2)
  | false :: marks, bytes => none :: postFields marks bytes

/-- 10.5: the six presence marks of a byte, in bit order. -/
def presenceMarks (b : Byte) : List Bool := [b.getLsbD 0, b.getLsbD 1, b.getLsbD 2, b.getLsbD 3, b.getLsbD 4, b.getLsbD 5]

/-- 10.5: a post from its state and its field bytes. The three temperatures are signed (R160). -/
def sourcePostOf (state : SourceState) (marks : Byte) (fields : List Byte) : SourcePost :=
  let f := postFields (presenceMarks marks) fields
  let field (i : Nat) : Option (List Byte) := f.getD i none
  let number (i : Nat) : Option Nat := (field i).map natOf
  ⟨state, (field 0).map signedOf, number 1, number 2, number 3, (number 4).map aboveZero, (number 5).map aboveZero⟩

/-- R128: POST SOURCE. -/
def requestSource (m : Master) (payload : List Byte) : State → Taken :=
  owned .source m fun s =>
    match payload with
    | code :: marks :: fields =>
      if fields.length = 2 * (presenceMarks marks).countP id then
        match sourceStateOf code.toNat with
        | none => refuse .badIndex s
        | some state =>
          let p := sourcePostOf state marks fields
          taken (clampStatus (p.clamped s.source)) (s.takePost p)
      else refuse .badLength s
    | _ => refuse .badLength s

/-! ### WRITE SETTINGS (R26, R159) -/

/-- R26: the staged copy changed. -/
def State.stage (s : State) (f : Settings → Settings) : State := s.onStore fun st => { st with staged := f st.staged }

/-- R159, steps 4 and 5: a write of the right length to a record that is there. -/
def written (m : Master) (width records : Nat) (index : Byte) (record : List Byte) (write : State → Taken) : State → Taken :=
  owned .service m <| sized (record.length == width) fun s => if index.toNat < records then write s else refuse .badIndex s

/-- R24: GENERAL staged. -/
def stageGeneral (record : List Byte) (s : State) : Taken :=
  let g := generalOf record
  taken (clampStatus (clampGeneral g != g)) (s.stage fun x => { x with general := clampGeneral g })

/-- R24, R159: WRITE SETTINGS naming GENERAL. -/
def requestWriteGeneral (m : Master) (index : Byte) (record : List Byte) : State → Taken :=
  written m 36 1 index record (stageGeneral record)

/-- R2: LOOP SETTINGS staged. -/
def stageLoop (l : LoopNo) (record : List Byte) (s : State) : Taken :=
  let codes := record.map BitVec.toNat
  taken (clampStatus ((stagedLoop l codes).codes != codes)) (s.stage fun x => { x with loops := x.loops.set l (stagedLoop l codes) })

/-- R2, R159: WRITE SETTINGS naming LOOP SETTINGS. -/
def requestWriteLoop (m : Master) (index : Byte) (record : List Byte) : State → Taken :=
  written m 7 24 index record fun s => if h : index.toNat < 24 then stageLoop ⟨index.toNat, h⟩ record s else refuse .badIndex s

/-- R10, step 4: whether a loop stands in the staged list of a room other than one. -/
def State.listedElsewhere (s : State) (room : Fin 16) (l : LoopNo) : Bool :=
  allRooms.any fun r => r != room && (s.store.staged.rooms.get r).loops.contains l

/-- R10, step 4 and the acceptance: a room's list and fallback staged. -/
def stageRoom (room : Fin 16) (loops : List LoopNo) (fallback : Nat) (s : State) : Taken :=
  if hasRepeat loops || loops.any (s.listedElsewhere room) then refuse .conflict s
  else taken (clampStatus (decide (100 < fallback)))
    (s.stage fun x => { x with rooms := x.rooms.set room ⟨sortLoops loops, min fallback 100⟩ })

/-- R10, steps 2 and 3: a written ROOMS record; the places after the count are not read (R159). -/
def roomRecord (room : Fin 16) (record : List Byte) (s : State) : Taken :=
  let count := (record.getD 0 0).toNat
  if 4 < count then refuse .badLength s
  else match loopsNamed ((record.drop 1).take count) with
    | none => refuse .badIndex s
    | some loops => stageRoom room loops (record.getD 5 0).toNat s

/-- R10, R159: WRITE SETTINGS naming ROOMS. -/
def requestWriteRooms (m : Master) (index : Byte) (record : List Byte) : State → Taken :=
  written m 6 16 index record fun s => if h : index.toNat < 16 then roomRecord ⟨index.toNat, h⟩ record s else refuse .badIndex s

/-- R43: CONVERSION staged. -/
def stageConversion (record : List Byte) (s : State) : Taken :=
  let t := conversionOf record
  taken (clampStatus (t.map clampPoint != t)) (s.stage fun x => { x with conversion := t.map clampPoint })

/-- R43, R159: WRITE SETTINGS naming CONVERSION. -/
def requestWriteConversion (m : Master) (index : Byte) (record : List Byte) : State → Taken :=
  written m 34 1 index record (stageConversion record)

/-- R162: one route staged. -/
def stageRoute (kind : Fin 10) (b : Byte) (s : State) : Taken :=
  taken .ok (s.stage fun x => { x with routes := x.routes.set kind (masterSetOf b) })

/-- R162, R159: WRITE SETTINGS naming ROUTES. -/
def requestWriteRoutes (m : Master) (index : Byte) (record : List Byte) : State → Taken :=
  written m 1 10 index record fun s =>
    if h : index.toNat < 10 then stageRoute ⟨index.toNat, h⟩ (record.getD 0 0) s else refuse .badIndex s

/-- R141: one fault response staged. -/
def stageResponse (cls : Fin 12) (mode position : Byte) (s : State) : Taken :=
  let x := stagedResponse cls (responseModeOf mode.toNat) (safePositionOf position.toNat)
  taken (clampStatus (some x.mode != responseModeOf mode.toNat || some x.position != safePositionOf position.toNat))
    (s.stage fun st => { st with responses := st.responses.set cls x })

/-- R141, R159: WRITE SETTINGS naming FAULT RESPONSES. -/
def requestWriteResponses (m : Master) (index : Byte) (record : List Byte) : State → Taken :=
  written m 2 12 index record fun s =>
    if h : index.toNat < 12 then stageResponse ⟨index.toNat, h⟩ (record.getD 0 0) (record.getD 1 0) s else refuse .badIndex s

/-- R159, steps 1 to 3: a WRITE SETTINGS that names no settings table. A payload that names one is not this command's: it goes to that table's
command (`requestWrite`). -/
def requestWriteOther (m : Master) (payload : List Byte) : State → Taken :=
  owned .service m fun s =>
    match payload with
    | id :: _ :: _ => match tableOf id.toNat with
      | none => refuse .badIndex s
      | some _ => refuse .notOwner s
    | _ => refuse .badLength s

/-- R159: WRITE SETTINGS, by the table it names. -/
def requestWrite (m : Master) (payload : List Byte) (s : State) : Taken :=
  match payload with
  | id :: index :: record =>
    match tableOf id.toNat with
    | some .general => requestWriteGeneral m index record s
    | some .loopSettings => requestWriteLoop m index record s
    | some .rooms => requestWriteRooms m index record s
    | some .conversion => requestWriteConversion m index record s
    | some .routes => requestWriteRoutes m index record s
    | some .responses => requestWriteResponses m index record s
    | _ => requestWriteOther m payload s
  | _ => requestWriteOther m payload s

/-! ### Service requests -/

/-- R32: SAVE SETTINGS. -/
def requestSave (m : Master) (payload : List Byte) : State → Taken :=
  owned .service m <| sized (payload.length == 0) fun s =>
    if s.store.save.isSome then refuse .busy s else taken .ok (s.startSave .manual)

/-- R151: STILL_ACTIVE where some record named is still active. -/
def clearStatus (active : Bool) : Status := if active then .stillActive else .ok

/-- R150, R151: the pairs of a CLEAR FAULTS list, or none where one names no record. -/
def faultPairs : List Byte → Option (List CondKey)
  | cls :: subject :: rest => do return (← keyOf cls.toNat subject.toNat) :: (← faultPairs rest)
  | _ => some []

/-- R151: the pairs of a CLEAR FAULTS taken in the order they stand. -/
def clearPairs (pairs : List CondKey) (s : State) : Taken :=
  taken (clearStatus (pairs.any s.activeAt)) (pairs.foldl State.clearRecord s)

/-- R151: every record cleared, in list order and then over the unlisted ones, and OVERFLOW cleared. -/
def clearEverything (s : State) : Taken :=
  let t := s.clearOrder.foldl State.clearRecord s
  taken (clearStatus (allKeys.any t.activeAt)) { t with faults := { t.faults with overflow := false } }

/-- R151: CLEAR FAULTS: 0 for ALL, or 1 and 1..16 pairs. -/
def requestClearFaults (m : Master) (payload : List Byte) : State → Taken :=
  owned .service m <| sized (payload.length % 2 == 1 && decide (payload.length ≤ 33)) fun s =>
    match payload with
    | [] => refuse .badLength s
    | first :: rest =>
      if first = 0 then (if rest.isEmpty then clearEverything s else refuse .badLength s)
      else if first = 1 then
        if rest.isEmpty then refuse .badLength s
        else match faultPairs rest with
          | none => refuse .badIndex s
          | some pairs => clearPairs pairs s
      else refuse .badIndex s

/-- R102: capture records emptied. -/
def State.clearCaptures (s : State) (loops : List LoopNo) : State := loops.foldl (fun s l => s.onBalance l Balance.emptyCapture) s

/-- R102: CLEAR CAPTURE: 0 for ALL, or 1 and 1..24 loop numbers. -/
def requestClearCapture (m : Master) (payload : List Byte) : State → Taken :=
  owned .service m <| sized (decide (1 ≤ payload.length) && decide (payload.length ≤ 25)) fun s =>
    match payload with
    | [] => refuse .badLength s
    | first :: rest =>
      if first = 0 then (if rest.isEmpty then taken .ok (s.clearCaptures allLoops) else refuse .badLength s)
      else if first = 1 then
        if rest.isEmpty then refuse .badLength s
        else match loopsNamed rest with
          | none => refuse .badIndex s
          | some loops => taken .ok (s.clearCaptures loops)
      else refuse .badIndex s

/-- R20, R34: loops relearned. -/
def State.relearnLoops (s : State) (loops : List LoopNo) : State := (loops.foldl (fun s l => s.onBalance l Balance.relearn) s).learned

/-- R20: RELEARN. -/
def requestRelearn (m : Master) (payload : List Byte) : State → Taken :=
  owned .service m <| sized (decide (1 ≤ payload.length) && decide (payload.length ≤ 24)) fun s =>
    match loopsNamed payload with
    | none => refuse .badIndex s
    | some loops => taken .ok (s.relearnLoops loops)

/-- R22: RESET PLAN, which waits for the next slot boundary. -/
def requestResetPlan (m : Master) (payload : List Byte) : State → Taken :=
  owned .service m <| sized (payload.length == 0) fun s => taken .ok { s with clock := { s.clock with resetPlan := true } }

/-- R36: RESTART, which waits for the end of its reply. -/
def requestRestart (m : Master) (payload : List Byte) : State → Taken :=
  owned .service m <| sized (payload.length == 0) fun s => taken .ok { s with restartPending := true }

/-! ### By kind (R156) -/

/-- R156, 10.3: a request by its kind code. -/
def requestOf (m : Master) (kind : Byte) (payload : List Byte) (s : State) : Taken :=
  match kind.toNat with
  | 1 => requestReadTable payload s
  | 2 => requestEnable m payload s
  | 3 => requestAck m payload s
  | 4 => requestPostMail m payload s
  | 5 => requestTakeMail m payload s
  | 6 => requestDemand m payload s
  | 7 => requestSetPin m payload s
  | 8 => requestDropPin m payload s
  | 9 => requestSource m payload s
  | 10 => requestWrite m payload s
  | 11 => requestSave m payload s
  | 12 => requestClearFaults m payload s
  | 13 => requestClearCapture m payload s
  | 14 => requestRelearn m payload s
  | 15 => requestResetPlan m payload s
  | 16 => requestRestart m payload s
  | _ => refuse .badKind s

end Sys2Proof.Machine
end

