-- ==== Sys2Proof/Machine/DriveCommands.lean ====
section
/-! DEFINITION. The meanings of the drive periods, of load sensing and of the actuator supply (7.1, 7.2, 7.4). The stretches of driven time are
operands (log 21). -/

namespace Sys2Proof.Machine

open Sys2Proof

/-! ### Drive periods (R114, R115) -/

/-- R114: whether a channel in the BOOST phase has reached the boost time in force. -/
def Channel.boosted (g : General) (c : Channel) : Bool := c.phase == .boost && decide (g.boostTime * 10 ≤ c.boostElapsed)

/-- R114: boost elapsed grown by one drive period in the BOOST phase. -/
def Channel.growBoost (c : Channel) : Channel :=
  if c.phase = .boost then { c with boostElapsed := min (c.boostElapsed + 1) 1200 } else c

/-- DRIVE_PERIOD_END (R114): the drive period of an energised channel ends and the next begins. -/
def execDrivePeriodEnd (loop : Fin 24) (s : State) : Host.Outcome State Fault Refusal :=
  .next (s.whileRunning fun s => s.onChannel loop fun c => if c.energised then c.growBoost.enterHold s.general else c)

/-- BOOST_TIME_ELAPSED (R114): a channel that has reached the boost time enters the HOLD phase. -/
def execBoostTimeElapsed (loop : Fin 24) (s : State) : Host.Outcome State Fault Refusal :=
  .next (s.whileRunning fun s => s.onChannel loop fun c => if c.boosted s.general then c.enterHold s.general else c)

/-- R115: whether 1 ms of driven time at a current limits a channel's drive period. -/
def Channel.limits (g : General) (c : Channel) (milliamps : Nat) : Bool :=
  c.phase == .boost && !c.cut && decide (g.inrushLimit < milliamps)

/-- R115: the switch turned off for the rest of the drive period, after 1 ms above the limit that began `onFor` ms into it (log 21). -/
def Channel.cutOff (c : Channel) (onFor : Nat) : Channel :=
  { c with cut := true, onTime := min (onFor + 1) c.onTime, limited := min (c.limited + 1) 1200 }

/-- INRUSH_LIMIT (R115). -/
def execInrushLimit (loop : Fin 24) (milliamps onFor : Nat) (s : State) : Host.Outcome State Fault Refusal :=
  .next (s.whileRunning fun s => s.onChannel loop fun c => if c.limits s.general milliamps then c.cutOff onFor else c)

/-! ### Load sensing (R116, R117) -/

/-- A sensing time after `driven` ms of driven time: grown where the current is on its side of the threshold, 0 where it is not. -/
def sensed (grows : Bool) (time driven : Nat) : Nat := if grows then time + driven else 0

/-- R116: the overcurrent sensing of a channel. -/
def Channel.senseOver (g : General) (c : Channel) (milliamps driven : Nat) : Channel :=
  { c with overcurrentTime := sensed (decide (g.overcurrentThreshold < milliamps)) c.overcurrentTime driven }

/-- R117: the open-load sensing of a channel; a driven moment below the threshold sets the recovery time to 0. -/
def Channel.senseOpen (g : General) (c : Channel) (milliamps driven : Nat) : Channel :=
  let below := decide (milliamps < g.openLoadThreshold)
  { c with openLoadTime := sensed below c.openLoadTime driven, recoveryTime := if below then 0 else c.recoveryTime }

/-- R117: the recovery sensing of a channel; a driven moment at or above the threshold sets the open-load time to 0. -/
def Channel.senseRecovery (g : General) (c : Channel) (milliamps driven : Nat) : Channel :=
  let above := decide (g.openLoadThreshold ≤ milliamps)
  { c with recoveryTime := sensed above c.recoveryTime driven, openLoadTime := if above then 0 else c.openLoadTime }

/-- R116: DRIVE_OVERCURRENT handed on where the time exceeds its limit. -/
def State.judgeOver (s : State) (l : LoopNo) : State :=
  if s.general.overcurrentTime < (s.channels.get l).overcurrentTime then s.becomePresent (.loop .driveOvercurrent l) else s

/-- R117: DRIVE_OPEN handed on where the time exceeds its limit. -/
def State.judgeOpen (s : State) (l : LoopNo) : State :=
  if s.general.openLoadTime * 100 < (s.channels.get l).openLoadTime then s.becomePresent (.loop .driveOpen l) else s

/-- R117: the end of DRIVE_OPEN handed on where the recovery time reaches its limit; the recovery time is 0 while the condition is absent. -/
def State.judgeRecovery (s : State) (l : LoopNo) : State :=
  if s.general.openLoadTime * 100 ≤ (s.channels.get l).recoveryTime then
    (s.onChannel l fun c => { c with recoveryTime := 0 }).becomeAbsent (.loop .driveOpen l)
  else s

/-- OVERCURRENT_DETECTED (R116). -/
def execOvercurrentDetected (loop : Fin 24) (milliamps driven : Nat) (s : State) : Host.Outcome State Fault Refusal :=
  .next (s.whileRunning fun s =>
    if s.energised loop then (s.onChannel loop fun c => c.senseOver s.general milliamps driven).judgeOver loop else s)

/-- OPEN_LOAD_DETECTED (R117). -/
def execOpenLoadDetected (loop : Fin 24) (milliamps driven : Nat) (s : State) : Host.Outcome State Fault Refusal :=
  .next (s.whileRunning fun s =>
    if s.energised loop then (s.onChannel loop fun c => c.senseOpen s.general milliamps driven).judgeOpen loop else s)

/-- OPEN_LOAD_RECOVERED (R117): while DRIVE_OPEN is present and the channel is still driven. -/
def execOpenLoadRecovered (loop : Fin 24) (milliamps driven : Nat) (s : State) : Host.Outcome State Fault Refusal :=
  .next (s.whileRunning fun s =>
    if s.energised loop && s.present (.loop .driveOpen loop) then
      (s.onChannel loop fun c => c.senseRecovery s.general milliamps driven).judgeRecovery loop
    else s)

/-! ### The actuator supply (R120, R121) -/

/-- SUPPLY_FALLS_LOW (R120). -/
def execSupplyFallsLow (millivolts : Nat) (s : State) : Host.Outcome State Fault Refusal :=
  .next (s.whileRunning fun s => if !s.supply.low && decide (millivolts < 19500) then s.loseSupply else s)

/-- SUPPLY_RETURNS (R121). -/
def execSupplyReturns (millivolts : Nat) (s : State) : Host.Outcome State Fault Refusal :=
  .next (s.whileRunning fun s => if s.supply.low && decide (21000 < millivolts) then s.regainSupply else s)

end Sys2Proof.Machine
end

