-- ==== Sys2Proof/Machine/EventCommands.lean ====
section
/-! DEFINITION. The meanings of the boundaries and of the events of the timers and the supervisor (02 to 09). A boundary makes every decision that
falls at its instant; an event makes the one decision of its rule on the state as it stands, and changes nothing where the rule's condition does not
hold (log 3). -/

namespace Sys2Proof.Machine

open Sys2Proof

/-! ### Boundaries -/

/-- The boundary that is due at the end of the slot in progress (R21, R22). -/
def State.dueBoundary (s : State) (codes : Codes) : State :=
  if s.clock.slot = 47 then s.frameEnd codes else if s.clock.resetPlan then s.planReset codes else s.slotBoundary codes

/-- SLOT_END (R21): the slot in progress ends, with the boundary that is due there. -/
def execSlotEnd (codes : Codes) (s : State) : Host.Outcome State Fault Refusal := .next (s.whileRunning fun s => s.dueBoundary codes)

/-- FRAME_END (R21): the end of slot 47. In another slot no frame ends. -/
def execFrameEnd (codes : Codes) (s : State) : Host.Outcome State Fault Refusal :=
  .next (s.whileRunning fun s => if s.clock.slot = 47 then s.frameEnd codes else s)

/-- PLAN_RESET_BOUNDARY (R91): the end of slot 0..46 with a RESET PLAN waiting. At another boundary no plan reset of its own is carried out. -/
def execPlanResetBoundary (codes : Codes) (s : State) : Host.Outcome State Fault Refusal :=
  .next (s.whileRunning fun s => if s.clock.slot ≠ 47 && s.clock.resetPlan then s.planReset codes else s)

/-! ### Sensors and measurements -/

/-- SENSOR_FAULT_PRESENT (R46): the condition of a channel decided, where its counts make it present. -/
def execSensorFaultPresent (channel : Fin 26) (s : State) : Host.Outcome State Fault Refusal :=
  .next (s.whileRunning fun s => if s.sensorFault channel then s.becomePresent (sensorKey channel) else s)

/-- SENSOR_FAULT_ENDS (R46, R47): the condition of a channel decided, where its counts or its setting end it. -/
def execSensorFaultEnds (channel : Fin 26) (s : State) : Host.Outcome State Fault Refusal :=
  .next (s.whileRunning fun s => if s.sensorFault channel then s else s.becomeAbsent (sensorKey channel))

/-- R100: a measurement without a result at 12 slots since start ends. -/
def Balance.timeOut (b : Balance) : Balance :=
  match b.measurement with
  | some m => if 12 ≤ m.slots then { b with measurement := none } else b
  | none => b

/-- DEAD_TIME_TIMEOUT (R100). -/
def execDeadTimeTimeout (loop : Fin 24) (s : State) : Host.Outcome State Fault Refusal :=
  .next (s.whileRunning fun s => s.onBalance loop Balance.timeOut)

/-! ### The supervisor -/

/-- STUCK_CLOSED_WINDOW (R146). -/
def execStuckClosedWindow (loop : Fin 24) (s : State) : Host.Outcome State Fault Refusal :=
  .next (s.whileRunning fun s => if s.checkFailed loop then s.becomePresent (.loop .stuckClosed loop) else s)

/-- STUCK_OPEN_WINDOW (R147). -/
def execStuckOpenWindow (loop : Fin 24) (s : State) : Host.Outcome State Fault Refusal :=
  .next (s.whileRunning fun s => if s.openReached loop then s.becomePresent (.loop .stuckOpen loop) else s)

/-- RETRY_EXPIRY (R144). -/
def execRetryExpiry (cls : LoopClass) (loop : Fin 24) (s : State) : Host.Outcome State Fault Refusal :=
  .next (s.whileRunning fun s => s.expire cls loop)

/-! ### The source -/

/-- SOURCE_TIMEOUT (R131). -/
def execSourceTimeout (s : State) : Host.Outcome State Fault Refusal :=
  .next (s.whileRunning fun s => if s.sourceDue then s.becomePresent (.part .sourceSilent) else s)

/-- SETTLE_END (R136). -/
def execSettleEnd (s : State) : Host.Outcome State Fault Refusal :=
  .next (s.whileRunning fun s => { s with source := s.source.endSettle s.general.settleCount })

/-! ### Starts, saves and rooms -/

/-- PENDING_START_SERVED (R118): the arbiter serves the PENDING channels from the budget left in the slot that begins. -/
def execPendingStartServed (s : State) : Host.Outcome State Fault Refusal := .next (s.whileRunning fun s => s.arbiter)

/-- The codes of the slot in progress where the command that ends it carries none: free values (log 26). -/
def State.unstatedCodes (s : State) : Codes := Tab.ofFn fun ch => Config.unstatedCode s.draws ch.val

/-- AUTOSAVE_CHECK (R35): the frame end at which the count would reach 90. At another moment no check is made (log 3). -/
def execAutosaveCheck (s : State) : Host.Outcome State Fault Refusal :=
  .next (s.whileRunning fun s => if s.clock.slot = 47 ∧ 89 ≤ s.store.autosaveCount then s.frameEnd s.unstatedCodes else s)

/-- POSTPONED_AUTOSAVE (R35): the frame end that finds an autosave postponed and no save in progress. At another moment none starts (log 3). -/
def execPostponedAutosave (s : State) : Host.Outcome State Fault Refusal :=
  .next (s.whileRunning fun s =>
    if s.clock.slot = 47 ∧ s.store.autosavePostponed ∧ s.store.save.isNone then s.frameEnd s.unstatedCodes else s)

/-- R54, R55: a used room whose age has reached the demand timeout. -/
def State.timeOutRoom (s : State) (room : Fin 16) : State :=
  if s.roomUsed room && (s.rooms.get room).state != .stale && decide (s.general.demandTimeout ≤ (s.rooms.get room).age) then
    (s.onRoom room fun r => { r with state := .stale }).becomePresent (.room room)
  else s

/-- ROOM_DEMAND_TIMEOUT (R54, R55). -/
def execRoomDemandTimeout (room : Fin 16) (s : State) : Host.Outcome State Fault Refusal :=
  .next (s.whileRunning fun s => s.timeOutRoom room)

/-- FOLLOWER_FAULT_RELEASE (R125). -/
def execFollowerFaultRelease (loop : Fin 24) (s : State) : Host.Outcome State Fault Refusal :=
  .next (s.whileRunning fun s => s.releaseStale loop)

end Sys2Proof.Machine
end

