-- ==== Sys2Proof/Machine/LinkCommands.lean ====
section
/-! DEFINITION. The meanings of the port lines, of reading, and of notices and mail (10, 11). -/

namespace Sys2Proof.Machine

open Sys2Proof

/-- BYTE_RECEIVED (R154): a byte is stored, starts a frame, or is discarded; a part held in reset discards it (R36). -/
def execByteReceived (port : Master) (byte : Byte) (stopGood : Bool) (s : State) : Host.Outcome State Fault Refusal :=
  .next (s.whileRunning fun s => s.setPort port ((s.ports.get port).receive byte stopGood))

/-- RECEIVE_GAP_ELAPSED (R154): the frame of a RECEIVING port ends and is judged: dropped, or taken as a request. -/
def execReceiveGapElapsed (port : Master) (s : State) : Host.Outcome State Fault Refusal :=
  .next (s.whileRunning fun s =>
    let p := s.ports.get port
    if p.state != .receiving then s
    else if p.hasRequest then s.serve port (requestOf port (frameKind p.buffer) (framePayload p.buffer))
    else s.setPort port freshPort)

/-- REPLY_SENT (R157): the port returns to IDLE. The reply of a RESTART leaves the part waiting in reset for its full reset (R36, log 20). -/
def execReplySent (port : Master) (s : State) : Host.Outcome State Fault Refusal :=
  .next (s.whileRunning fun s =>
    if (s.ports.get port).state != .replying then s
    else if port == .service && s.restartPending then s.holdInReset
    else s.setPort port freshPort)

/-- UNKNOWN_KIND (R156): BAD_KIND. -/
def execUnknownKind (port : Master) (_kind : Byte) (_payload : List Byte) (s : State) : Host.Outcome State Fault Refusal :=
  .next (s.serve port (refuse .badKind))

/-- READ_TABLE (R158). -/
def execReadTable (port : Master) (payload : List Byte) (s : State) : Host.Outcome State Fault Refusal :=
  .next (s.serve port (requestReadTable payload))

/-- ENABLE_NOTICES (R163). -/
def execEnableNotices (port : Master) (payload : List Byte) (s : State) : Host.Outcome State Fault Refusal :=
  .next (s.serve port (requestEnable port payload))

/-- ACK_NOTICES (R163). -/
def execAckNotices (port : Master) (payload : List Byte) (s : State) : Host.Outcome State Fault Refusal :=
  .next (s.serve port (requestAck port payload))

/-- POST_MAIL (R165). -/
def execPostMail (port : Master) (payload : List Byte) (s : State) : Host.Outcome State Fault Refusal :=
  .next (s.serve port (requestPostMail port payload))

/-- TAKE_MAIL (R166). -/
def execTakeMail (port : Master) (payload : List Byte) (s : State) : Host.Outcome State Fault Refusal :=
  .next (s.serve port (requestTakeMail port payload))

/-- POST_DEMAND (R52, R53). -/
def execPostDemand (port : Master) (payload : List Byte) (s : State) : Host.Outcome State Fault Refusal :=
  .next (s.serve port (requestDemand port payload))

/-- SET_PIN (R13 to R15). -/
def execSetPin (port : Master) (payload : List Byte) (s : State) : Host.Outcome State Fault Refusal :=
  .next (s.serve port (requestSetPin port payload))

/-- DROP_PIN (R16). -/
def execDropPin (port : Master) (payload : List Byte) (s : State) : Host.Outcome State Fault Refusal :=
  .next (s.serve port (requestDropPin port payload))

/-- POST_SOURCE (R128). -/
def execPostSource (port : Master) (payload : List Byte) (s : State) : Host.Outcome State Fault Refusal :=
  .next (s.serve port (requestSource port payload))

end Sys2Proof.Machine
end

