-- ==== Sys2Proof/Machine/ServiceCommands.lean ====
section
/-! DEFINITION. The meanings of the service tool's requests, of a save's end and of the resets (01, 02, 05, 06, 09). -/

namespace Sys2Proof.Machine

open Sys2Proof

/-- WRITE_GENERAL (R24). -/
def execWriteGeneral (port : Master) (index : Byte) (record : List Byte) (s : State) : Host.Outcome State Fault Refusal :=
  .next (s.serve port (requestWriteGeneral port index record))

/-- WRITE_LOOP_SETTINGS (R2). -/
def execWriteLoopSettings (port : Master) (index : Byte) (record : List Byte) (s : State) : Host.Outcome State Fault Refusal :=
  .next (s.serve port (requestWriteLoop port index record))

/-- WRITE_ROOMS (R10). -/
def execWriteRooms (port : Master) (index : Byte) (record : List Byte) (s : State) : Host.Outcome State Fault Refusal :=
  .next (s.serve port (requestWriteRooms port index record))

/-- WRITE_CONVERSION (R43). -/
def execWriteConversion (port : Master) (index : Byte) (record : List Byte) (s : State) : Host.Outcome State Fault Refusal :=
  .next (s.serve port (requestWriteConversion port index record))

/-- WRITE_ROUTES (R162). -/
def execWriteRoutes (port : Master) (index : Byte) (record : List Byte) (s : State) : Host.Outcome State Fault Refusal :=
  .next (s.serve port (requestWriteRoutes port index record))

/-- WRITE_FAULT_RESPONSES (R141). -/
def execWriteFaultResponses (port : Master) (index : Byte) (record : List Byte) (s : State) : Host.Outcome State Fault Refusal :=
  .next (s.serve port (requestWriteResponses port index record))

/-- WRITE_SETTINGS_OTHER (R159, steps 1 to 3). -/
def execWriteSettingsOther (port : Master) (payload : List Byte) (s : State) : Host.Outcome State Fault Refusal :=
  .next (s.serve port (requestWriteOther port payload))

/-- SAVE_SETTINGS (R32). -/
def execSaveSettings (port : Master) (payload : List Byte) (s : State) : Host.Outcome State Fault Refusal :=
  .next (s.serve port (requestSave port payload))

/-- SAVE_COMPLETE (R32): the save in flight ends with the outcome of its verify. -/
def execSaveComplete (agrees : Bool) (s : State) : Host.Outcome State Fault Refusal :=
  .next (s.whileRunning fun s => s.completeSave agrees)

/-- CLEAR_FAULTS (R151). -/
def execClearFaults (port : Master) (payload : List Byte) (s : State) : Host.Outcome State Fault Refusal :=
  .next (s.serve port (requestClearFaults port payload))

/-- CLEAR_FAULTS_ALL (R151): the payload is the byte 0. -/
def execClearFaultsAll (port : Master) (s : State) : Host.Outcome State Fault Refusal :=
  .next (s.serve port (owned .service port clearEverything))

/-- CLEAR_CAPTURE (R102). -/
def execClearCapture (port : Master) (payload : List Byte) (s : State) : Host.Outcome State Fault Refusal :=
  .next (s.serve port (requestClearCapture port payload))

/-- CLEAR_CAPTURE_ALL (R102): the payload is the byte 0. -/
def execClearCaptureAll (port : Master) (s : State) : Host.Outcome State Fault Refusal :=
  .next (s.serve port (owned .service port fun s => taken .ok (s.clearCaptures allLoops)))

/-- RELEARN (R20). -/
def execRelearn (port : Master) (payload : List Byte) (s : State) : Host.Outcome State Fault Refusal :=
  .next (s.serve port (requestRelearn port payload))

/-- RESET_PLAN (R22, R91). -/
def execResetPlan (port : Master) (payload : List Byte) (s : State) : Host.Outcome State Fault Refusal :=
  .next (s.serve port (requestResetPlan port payload))

/-- RESTART (R36). -/
def execRestart (port : Master) (payload : List Byte) (s : State) : Host.Outcome State Fault Refusal :=
  .next (s.serve port (requestRestart port payload))

/-- RESET_HOLD (R36). -/
def execResetHold (s : State) : Host.Outcome State Fault Refusal := .next s.holdInReset

/-- FULL_RESET (R36, R37): performed whenever it is commanded (log 20). -/
def execFullReset (supplyMillivolts : Nat) (s : State) : Host.Outcome State Fault Refusal := .next (s.fullReset supplyMillivolts)

end Sys2Proof.Machine
end

