-- ==== Sys2Proof/Machine/Dispatch.lean ====
section
/-! DEFINITION. One arm for each command: the call of its meaning. -/

namespace Sys2Proof.Machine

open Sys2Proof

/-- What a command does to everything but the queue. -/
def exec (i : Instr) (s : State) : Host.Outcome State Fault Refusal :=
  match i with
  | .byteReceived port byte stopGood => Sys2Proof.Machine.execByteReceived port byte stopGood s
  | .receiveGapElapsed port => Sys2Proof.Machine.execReceiveGapElapsed port s
  | .replySent port => Sys2Proof.Machine.execReplySent port s
  | .unknownKind port kind payload => Sys2Proof.Machine.execUnknownKind port kind payload s
  | .readTable port payload => Sys2Proof.Machine.execReadTable port payload s
  | .enableNotices port payload => Sys2Proof.Machine.execEnableNotices port payload s
  | .ackNotices port payload => Sys2Proof.Machine.execAckNotices port payload s
  | .postMail port payload => Sys2Proof.Machine.execPostMail port payload s
  | .takeMail port payload => Sys2Proof.Machine.execTakeMail port payload s
  | .postDemand port payload => Sys2Proof.Machine.execPostDemand port payload s
  | .setPin port payload => Sys2Proof.Machine.execSetPin port payload s
  | .dropPin port payload => Sys2Proof.Machine.execDropPin port payload s
  | .postSource port payload => Sys2Proof.Machine.execPostSource port payload s
  | .writeGeneral port index record => Sys2Proof.Machine.execWriteGeneral port index record s
  | .writeLoopSettings port index record => Sys2Proof.Machine.execWriteLoopSettings port index record s
  | .writeRooms port index record => Sys2Proof.Machine.execWriteRooms port index record s
  | .writeConversion port index record => Sys2Proof.Machine.execWriteConversion port index record s
  | .writeRoutes port index record => Sys2Proof.Machine.execWriteRoutes port index record s
  | .writeFaultResponses port index record => Sys2Proof.Machine.execWriteFaultResponses port index record s
  | .writeSettingsOther port payload => Sys2Proof.Machine.execWriteSettingsOther port payload s
  | .saveSettings port payload => Sys2Proof.Machine.execSaveSettings port payload s
  | .saveComplete agrees => Sys2Proof.Machine.execSaveComplete agrees s
  | .clearFaults port payload => Sys2Proof.Machine.execClearFaults port payload s
  | .clearFaultsAll port => Sys2Proof.Machine.execClearFaultsAll port s
  | .clearCapture port payload => Sys2Proof.Machine.execClearCapture port payload s
  | .clearCaptureAll port => Sys2Proof.Machine.execClearCaptureAll port s
  | .relearn port payload => Sys2Proof.Machine.execRelearn port payload s
  | .resetPlan port payload => Sys2Proof.Machine.execResetPlan port payload s
  | .restart port payload => Sys2Proof.Machine.execRestart port payload s
  | .resetHold => Sys2Proof.Machine.execResetHold s
  | .fullReset supplyMillivolts => Sys2Proof.Machine.execFullReset supplyMillivolts s
  | .slotEnd codes => Sys2Proof.Machine.execSlotEnd codes s
  | .sensorFaultPresent channel => Sys2Proof.Machine.execSensorFaultPresent channel s
  | .sensorFaultEnds channel => Sys2Proof.Machine.execSensorFaultEnds channel s
  | .deadTimeTimeout loop => Sys2Proof.Machine.execDeadTimeTimeout loop s
  | .stuckClosedWindow loop => Sys2Proof.Machine.execStuckClosedWindow loop s
  | .stuckOpenWindow loop => Sys2Proof.Machine.execStuckOpenWindow loop s
  | .sourceTimeout => Sys2Proof.Machine.execSourceTimeout s
  | .settleEnd => Sys2Proof.Machine.execSettleEnd s
  | .retryExpiry cls loop => Sys2Proof.Machine.execRetryExpiry cls loop s
  | .pendingStartServed => Sys2Proof.Machine.execPendingStartServed s
  | .frameEnd codes => Sys2Proof.Machine.execFrameEnd codes s
  | .autosaveCheck => Sys2Proof.Machine.execAutosaveCheck s
  | .postponedAutosave => Sys2Proof.Machine.execPostponedAutosave s
  | .roomDemandTimeout room => Sys2Proof.Machine.execRoomDemandTimeout room s
  | .planResetBoundary codes => Sys2Proof.Machine.execPlanResetBoundary codes s
  | .boostTimeElapsed loop => Sys2Proof.Machine.execBoostTimeElapsed loop s
  | .inrushLimit loop milliamps onFor => Sys2Proof.Machine.execInrushLimit loop milliamps onFor s
  | .overcurrentDetected loop milliamps driven => Sys2Proof.Machine.execOvercurrentDetected loop milliamps driven s
  | .openLoadDetected loop milliamps driven => Sys2Proof.Machine.execOpenLoadDetected loop milliamps driven s
  | .openLoadRecovered loop milliamps driven => Sys2Proof.Machine.execOpenLoadRecovered loop milliamps driven s
  | .followerFaultRelease loop => Sys2Proof.Machine.execFollowerFaultRelease loop s
  | .supplyFallsLow millivolts => Sys2Proof.Machine.execSupplyFallsLow millivolts s
  | .supplyReturns millivolts => Sys2Proof.Machine.execSupplyReturns millivolts s
  | .drivePeriodEnd loop => Sys2Proof.Machine.execDrivePeriodEnd loop s

end Sys2Proof.Machine
end

