-- ==== Sys2Proof/Machine/Frames.lean ====
section
/-! DEFINITION. The request frames of 10.5 as a master sends them, and the request that a command is. -/

namespace Sys2Proof.Machine

open Sys2Proof

/-- R155, 10.5: a request frame: kind, payload length, payload, check. -/
def requestFrame (kind : Byte) (payload : List Byte) : List Byte :=
  let body := kind :: BitVec.ofNat 8 payload.length :: payload
  body ++ checkBytes body

/-- 10.3: the port, kind code and payload of a command that is a request; none for an event. -/
def requestIn : Instr → Option (Master × Byte × List Byte)
  | .byteReceived _ _ _ => none
  | .receiveGapElapsed _ => none
  | .replySent _ => none
  | .unknownKind port kind payload => some (port, kind, payload)
  | .readTable port payload => some (port, 1, payload)
  | .enableNotices port payload => some (port, 2, payload)
  | .ackNotices port payload => some (port, 3, payload)
  | .postMail port payload => some (port, 4, payload)
  | .takeMail port payload => some (port, 5, payload)
  | .postDemand port payload => some (port, 6, payload)
  | .setPin port payload => some (port, 7, payload)
  | .dropPin port payload => some (port, 8, payload)
  | .postSource port payload => some (port, 9, payload)
  | .writeGeneral port index record => some (port, 10, 0 :: index :: record)
  | .writeLoopSettings port index record => some (port, 10, 1 :: index :: record)
  | .writeRooms port index record => some (port, 10, 2 :: index :: record)
  | .writeConversion port index record => some (port, 10, 12 :: index :: record)
  | .writeRoutes port index record => some (port, 10, 13 :: index :: record)
  | .writeFaultResponses port index record => some (port, 10, 14 :: index :: record)
  | .writeSettingsOther port payload => some (port, 10, payload)
  | .saveSettings port payload => some (port, 11, payload)
  | .saveComplete _ => none
  | .clearFaults port payload => some (port, 12, payload)
  | .clearFaultsAll port => some (port, 12, [0])
  | .clearCapture port payload => some (port, 13, payload)
  | .clearCaptureAll port => some (port, 13, [0])
  | .relearn port payload => some (port, 14, payload)
  | .resetPlan port payload => some (port, 15, payload)
  | .restart port payload => some (port, 16, payload)
  | .resetHold => none
  | .fullReset _ => none
  | .slotEnd _ => none
  | .sensorFaultPresent _ => none
  | .sensorFaultEnds _ => none
  | .deadTimeTimeout _ => none
  | .stuckClosedWindow _ => none
  | .stuckOpenWindow _ => none
  | .sourceTimeout => none
  | .settleEnd => none
  | .retryExpiry _ _ => none
  | .pendingStartServed => none
  | .frameEnd _ => none
  | .autosaveCheck => none
  | .postponedAutosave => none
  | .roomDemandTimeout _ => none
  | .planResetBoundary _ => none
  | .boostTimeElapsed _ => none
  | .inrushLimit _ _ _ => none
  | .overcurrentDetected _ _ _ => none
  | .openLoadDetected _ _ _ => none
  | .openLoadRecovered _ _ _ => none
  | .followerFaultRelease _ => none
  | .supplyFallsLow _ => none
  | .supplyReturns _ => none
  | .drivePeriodEnd _ => none

end Sys2Proof.Machine
end

