-- ==== Sys2Proof/Safety.lean ====
section
/-! DEFINITION. What a sound state is, in the terms the statements use: the laws the spec gives for all times, gathered by the block that keeps
them. -/

namespace Sys2Proof.Machine

open Sys2Proof

/-! ### Mail (R165, R166) -/

/-- R165, R166: a master's queue holds at most two messages, none from itself, each of 1..4 words; MAIL is pending exactly while it holds one. -/
def Notices.sound (owner : Master) (n : Notices) : Prop :=
  n.mail.length ≤ 2 ∧ (n.pending &&& Kind.mail.bit ≠ 0 ↔ n.mail ≠ [])
    ∧ ∀ x ∈ n.mail, x.sender ≠ owner ∧ 1 ≤ x.words.length ∧ x.words.length ≤ 4

/-- The notice unit is sound for every master. -/
def State.mailSound (s : State) : Prop := ∀ m, (s.notices.get m).sound m

/-! ### Learned values (R3, R95, R100, R106) -/

/-- R3, R95, R100, R106: k in 64..1024, D and the dead slots remaining in 0..12, and an armed measurement short of its timeout. -/
def Balance.sound (b : Balance) : Prop :=
  64 ≤ b.factor ∧ b.factor ≤ 1024 ∧ b.deadTime ≤ 12 ∧ b.deadSlots ≤ 12 ∧ ∀ m, b.measurement = some m → m.slots ≤ 11

/-- The balance unit is sound for every loop. -/
def State.learnedSound (s : State) : Prop := ∀ l, (s.balance.get l).sound

/-! ### Channels (R112, R120, R122, R124) -/

/-- The states in which a channel's switch is driven (R112). -/
def ChannelState.driven : ChannelState → Bool
  | .idle => false
  | .pending => false
  | .boost => true
  | .hold => true
  | .safeOpen => true
  | .blocked => false

/-- R112: a channel is BLOCKED exactly while it has a block cause, and energised exactly in BOOST, HOLD and SAFE_OPEN. -/
def Channel.sound (c : Channel) : Prop := (c.state = .blocked ↔ c.causes.isEmpty = false) ∧ c.energised = c.state.driven

/-- R112, R120, R122, R124: every channel is sound; SUPPLY stands exactly while the supply is LOW, SHUTDOWN exactly while its manifold's
FLOW_SHUTDOWN is present, and FAULT wherever a CLOSED hold does. -/
def State.channelsSound (s : State) : Prop :=
  ∀ l, (s.channels.get l).sound ∧ (s.channels.get l).causes.supply = s.supply.low
    ∧ (s.channels.get l).causes.shutdown = s.present (.manifold .flowShutdown (manifoldOf l))
    ∧ (s.hold l = .closed → (s.channels.get l).causes.fault = true)

/-- The channels are sound while the part runs; in the reset hold they are all de-energised (R36). -/
def State.driveSound (s : State) : Prop :=
  (s.mode = .running → s.channelsSound) ∧ (s.mode = .held → ∀ l, s.energised l = false)

/-! ### The fault list (R150) -/

/-- R150: at most 32 entries, one for a condition record, each with a count in 1..255. -/
def State.listSound (s : State) : Prop :=
  s.faults.entries.length ≤ 32 ∧ (s.faults.entries.map FaultEntry.key).Nodup ∧ ∀ e ∈ s.faults.entries, 1 ≤ e.count ∧ e.count ≤ 255

/-! ### The flow request (R64, R67) -/

/-- R67: the flow request lies between the limits in force. -/
def State.flowSound (s : State) : Prop := s.source.limits.flowLow ≤ s.flowRequest ∧ s.flowRequest ≤ s.source.limits.flowHigh

/-! ### Settings, room lists and pins (R9, R15, R24) -/

/-- R9: no loop stands in two room lists, nor twice in one; a list is ascending (R10) and names at most four loops (R8). -/
def roomsSound (rooms : Tab 16 RoomSettings) : Prop :=
  (∀ r, (rooms.get r).loops.length ≤ 4 ∧ (rooms.get r).loops.Pairwise (· < ·))
    ∧ ∀ r r' l, l ∈ (rooms.get r).loops → l ∈ (rooms.get r').loops → r = r'

/-- R24 and the clamps of the other tables: settings that their own clamps leave as they are, with sound room lists. -/
def Settings.sound (x : Settings) : Prop := clampSettings x = x ∧ roomsSound x.rooms

/-- The settings of a store are sound wherever they stand: staged, in force, in a save in flight and in the image. Of the image only the room lists
are asked, since a load clamps the rest (R31). -/
def Store.sound (st : Store) : Prop :=
  st.staged.sound ∧ st.inForce.sound ∧ (∀ save, st.save = some save → roomsSound save.snapshot.settings.rooms)
    ∧ roomsSound st.image.content.settings.rooms

/-- R9, R12, R15: a SET pin lists 1..4 loops and has a window inside the frame, a FREE pin lists none, and no loop stands in two pins. -/
def State.pinsSound (s : State) : Prop :=
  (∀ p, (s.pins.get p).isSet = true →
      1 ≤ (s.pins.get p).loops.length ∧ (s.pins.get p).loops.length ≤ 4 ∧ (s.pins.get p).loops.Pairwise (· < ·)
        ∧ 1 ≤ (s.pins.get p).length ∧ (s.pins.get p).start + (s.pins.get p).length ≤ 48)
    ∧ (∀ p, (s.pins.get p).isSet = false → s.pins.get p = freePin)
    ∧ ∀ p p' l, l ∈ (s.pins.get p).loops → l ∈ (s.pins.get p').loops → p = p'

/-- The settings store and the pins are sound. -/
def State.settingsSound (s : State) : Prop := s.store.sound ∧ s.pinsSound

/-! ### The plan (R70) -/

/-- R70: in a slot, the open weight is within a ceiling, or the plan has no run there. -/
def State.withinCeiling (s : State) (ceiling t : Nat) : Prop :=
  s.openWeight t ≤ ceiling ∨ ∀ l, (s.run l).covers t = false

/-! ### Frames begun (R71, R91) -/

/-- R71: what a placement is made from, the duty records and the ring pointer apart, as another state has it. -/
def State.sameInputs (s t : State) : Prop :=
  s.store.inForce = t.store.inForce ∧ s.clock = t.clock ∧ s.rooms = t.rooms ∧ s.pins = t.pins ∧ s.source = t.source
    ∧ (∀ l, (s.balance.get l).factor = (t.balance.get l).factor) ∧ (∀ l, s.hold l = t.hold l)
    ∧ ∀ l, (s.plans.get l).idleFrames = (t.plans.get l).idleFrames

/-- R71, R73: the duty records, the runs, the per-slot records and the planner's pointers are those that a placement left. -/
def State.hasPlanOf (s placed : State) : Prop :=
  s.duty = placed.duty ∧ s.plans = placed.plans ∧ s.slots = placed.slots ∧ s.planner = placed.planner

/-- R91, R95, R111: every channel has been de-energised at this boundary: one that is driven was started after that, one that is not has no dead
slots, and has lost its measurement and stuck check where it was driven in the state before (R100, R146). -/
def State.startsAfresh (s before : State) : Prop :=
  ∀ l, (s.run l).continuation = false
    ∧ (s.energised l = true →
        (s.channels.get l).phase = .boost ∧ (s.channels.get l).boostElapsed = 0 ∧ (s.channels.get l).limited = 0
          ∧ (s.balance.get l).deadSlots = (s.balance.get l).deadTime)
    ∧ (s.energised l = false → (s.balance.get l).deadSlots = 0)
    ∧ (before.energised l = true → s.energised l = false → (s.balance.get l).measurement = none ∧ (s.watch.get l).check = none)

/-! ### Slots begun (R135, R136) -/

/-- R135, R136: the fresh flow temperature and the settle of the slot that begins at a boundary, from the state before it: a settle slot is counted at its
end under the settle count then in force, and the views in force in the two slots are compared under the one in force from the slot that begins. -/
def State.settlesFrom (t s : State) : Prop :=
  let heating (v : View) : Prop := v = .heat ∨ v = .fallback
  let elapsed := if s.source.settling then min (s.source.settled + 1) 12 else s.source.settled
  t.source.freshTemp = (if t.source.age < t.general.sourceTimeout then s.source.flowTemp else none)
    ∧ (¬ heating t.source.view → t.source.settling = false ∧ t.source.settled = 0)
    ∧ (heating t.source.view → heating s.source.view →
        t.source.settling = (s.source.settling && decide (elapsed < s.general.settleCount)) ∧ t.source.settled = elapsed)
    ∧ (heating t.source.view → ¬ heating s.source.view → t.source.settling = decide (0 < t.general.settleCount) ∧ t.source.settled = 0)

/-! ### Channels freed (R112) -/

/-- R112: where a channel freed of its last block cause goes, the mode, hold and run of its loop being those of a state. A run that a fault response
ended calls for no channel (log 14). -/
def FreedTo (s : State) (l : LoopNo) (c : Channel) : Prop :=
  let run := s.run (s.planLoop l)
  (s.effMode l = .off → c.state = .idle)
    ∧ (s.effMode l ≠ .off → s.hold l = .opened → c.state = .pending ∧ c.pendingFor = .safeOpen)
    ∧ (s.effMode l ≠ .off → s.hold l ≠ .opened → run.covers s.clock.slot.val = true → run.endCause ≠ .fault →
        c.state = .pending ∧ c.pendingFor = .restart)
    ∧ (s.effMode l ≠ .off → s.hold l ≠ .opened → (run.covers s.clock.slot.val = false ∨ run.endCause = .fault) → c.state = .idle)

/-! ### Runs and carries (R61) -/

/-- R61: the length of a loop's run and its carry are at most 48 together. -/
def State.carrySound (s : State) : Prop := ∀ l, (s.run l).length + (s.duty.get l).carry ≤ 48

/-! ### Records (R160) -/

/-- R160: a record of fields, each given by its width in bytes and its value; a value that its bytes cannot hold shows its low bytes. -/
def HasFields (record : List Byte) (fields : List (Nat × Nat)) : Prop :=
  record.length = (fields.map Prod.fst).sum ∧ fieldsOf (fields.map Prod.fst) record = fields.map fun f => f.2 % 256 ^ f.1

/-- R160: a set in a byte, bit `i` for the `i`th listed value. -/
def setOf : List Bool → Nat
  | [] => 0
  | b :: bs => b.toNat + 2 * setOf bs

/-! ### Requests at a port (R154, R157) -/

/-- A port takes a request: the part runs, and the port is not REPLYING. -/
def State.listens (s : State) (m : Master) : Prop := s.mode = .running ∧ (s.ports.get m).state ≠ .replying

/-- R157: the state after a request's effects, with its port REPLYING: an empty buffer, and a reply of a status and payload that carries the
sender's pending set as the effects leave it. -/
def State.answered (t : State) (m : Master) (status : Status) (payload : List Byte) : State :=
  t.setPort m ⟨.replying, [], false, some ⟨status, (t.notices.get m).pending, payload⟩⟩

/-- The ports of the other masters are those of another state. -/
def State.otherPorts (s : State) (m : Master) (before : State) : Prop := ∀ o, o ≠ m → s.ports.get o = before.ports.get o

/-- 10.3: the owner of a request kind; none where any master may send it. -/
def ownerOf : Nat → Option Master
  | 6 => some .room
  | 7 => some .room
  | 8 => some .room
  | 9 => some .source
  | 10 => some .service
  | 11 => some .service
  | 12 => some .service
  | 13 => some .service
  | 14 => some .service
  | 15 => some .service
  | 16 => some .service
  | _ => none

/-- 10.3: the payload lengths a request kind allows. Kind 9 is judged by its presence byte and kind 10 by its table (R128, R159): their own
statements say so. -/
def lengthAllowed (kind : Nat) (length : Nat) : Bool :=
  match kind with
  | 1 => length == 4
  | 2 => length == 2
  | 3 => length == 2
  | 4 => length == 3 || length == 5 || length == 7 || length == 9
  | 5 => length == 0
  | 6 => length % 2 == 0 && decide (2 ≤ length) && decide (length ≤ 16)
  | 7 => decide (4 ≤ length) && decide (length ≤ 7)
  | 8 => length == 1
  | 11 => length == 0
  | 12 => length % 2 == 1 && decide (length ≤ 33)
  | 13 => decide (1 ≤ length) && decide (length ≤ 25)
  | 14 => decide (1 ≤ length) && decide (length ≤ 24)
  | 15 => length == 0
  | 16 => length == 0
  | _ => true

/-! ### Notices (R161) -/

/-- R161: a kind is pending at every master of its route in force. -/
def State.pendingAtRoute (t : State) (k : Kind) : Prop :=
  ∀ m, (k.route t.store.inForce.routes).has m = true → (t.notices.get m).pending &&& k.bit ≠ 0

/-! ### Conditions (R143) -/

/-- R143, first: what the presence of a condition does to the fault list, from `s` to `t`, under the mode in force. -/
def ListedBy (s t : State) (key : CondKey) : Prop :=
  ((s.response key).mode = .ignore → t.faults = s.faults)
    ∧ ((s.response key).mode ≠ .ignore → s.listed key = true →
        t.faults.overflow = s.faults.overflow
          ∧ t.faults.entries = s.faults.entries.map fun e =>
              if e.key = key then { e with count := min (e.count + 1) 255, lastFrame := s.clock.frame } else e)
    ∧ ((s.response key).mode ≠ .ignore → s.listed key = false → s.faults.entries.length < 32 →
        t.faults.overflow = s.faults.overflow
          ∧ t.faults.entries = s.faults.entries ++ [⟨key, s.clock.frame, s.clock.slot, s.clock.frame, 1⟩])
    ∧ ((s.response key).mode ≠ .ignore → s.listed key = false → 32 ≤ s.faults.entries.length →
        t.faults.overflow = true ∧ t.faults.entries = s.faults.entries)

/-- R143, second: the hold that the presence of a condition leaves on its record, from `s` to `t`, under the response in force. -/
def HeldBy (s t : State) (key : CondKey) : Prop :=
  ((s.record key).hold ≠ .none → (t.record key).hold = (s.record key).hold ∧ (t.record key).position = (s.record key).position)
    ∧ ((s.record key).hold = .retry → (s.response key).mode = .latch ∨ (s.response key).mode = .retry → (t.record key).retrySlots = 0)
    ∧ ((s.record key).hold = .retry → (s.response key).mode ≠ .latch → (s.response key).mode ≠ .retry →
        (t.record key).retrySlots = (s.record key).retrySlots)
    ∧ ((s.record key).hold = .none → (s.response key).mode = .latch →
        (t.record key).hold = .latch ∧ (t.record key).position = (s.response key).position ∧ (t.record key).retrySlots = 0)
    ∧ ((s.record key).hold = .none → (s.response key).mode = .retry →
        (t.record key).hold = .retry ∧ (t.record key).position = (s.response key).position ∧ (t.record key).retrySlots = 0)
    ∧ ((s.record key).hold = .none → (s.response key).mode ≠ .latch → (s.response key).mode ≠ .retry → (t.record key).hold = .none)

/-- R122, R143, R145: what the presence of a loop condition comes to: it is listed, its response is applied, and a loop that comes under a CLOSED
hold by it is BLOCKED for a fault and de-energised. -/
def TakenUp (s t : State) (cls : LoopClass) (l : LoopNo) : Prop :=
  ListedBy s t (.loop cls l) ∧ HeldBy s t (.loop cls l)
    ∧ (s.hold l ≠ .closed → t.hold l = .closed →
        t.energised l = false ∧ (t.channels.get l).state = .blocked ∧ (t.channels.get l).causes.fault = true)

end Sys2Proof.Machine
end

