-- ==== Sys2Proof/WellFormed.lean ====
section
/-! DEFINITION. Which terms of `Instr` are commands of the part: what each operand may be, apart from the state. A request whose payload
the part refuses is still a well-formed command. -/

namespace Sys2Proof

/-- A request frame carries a payload of 0..48 bytes (R154, step 2). -/
def payloadFits (payload : List Byte) : Bool := payload.length ≤ 48

/-- A WRITE SETTINGS record, which stands after the table id and the index in the payload. -/
def recordFits (record : List Byte) : Bool := record.length ≤ 46

/-- The table ids of the six settings tables (10.4). -/
def settingsTableIds : List Nat := [0, 1, 2, 12, 13, 14]

/-- A payload of WRITE SETTINGS that reaches none of the six settings tables (R159, steps 1 to 3). -/
def namesNoSettingsTable : List Byte → Bool
  | table :: _ :: _ => !(settingsTableIds.contains table.toNat)
  | _ => true

/-- The well-formed commands. -/
def Instr.wellFormed : Instr → Bool
  | .byteReceived _ _ _ => true
  | .receiveGapElapsed _ => true
  | .replySent _ => true
  | .unknownKind _ kind payload => (kind.toNat == 0 || 16 < kind.toNat) && payloadFits payload
  | .readTable _ payload => payloadFits payload
  | .enableNotices _ payload => payloadFits payload
  | .ackNotices _ payload => payloadFits payload
  | .postMail _ payload => payloadFits payload
  | .takeMail _ payload => payloadFits payload
  | .postDemand _ payload => payloadFits payload
  | .setPin _ payload => payloadFits payload
  | .dropPin _ payload => payloadFits payload
  | .postSource _ payload => payloadFits payload
  | .writeGeneral _ _ record => recordFits record
  | .writeLoopSettings _ _ record => recordFits record
  | .writeRooms _ _ record => recordFits record
  | .writeConversion _ _ record => recordFits record
  | .writeRoutes _ _ record => recordFits record
  | .writeFaultResponses _ _ record => recordFits record
  | .writeSettingsOther _ payload => payloadFits payload && namesNoSettingsTable payload
  | .saveSettings _ payload => payloadFits payload
  | .saveComplete _ => true
  | .clearFaults _ payload => payloadFits payload && payload != [0]
  | .clearFaultsAll _ => true
  | .clearCapture _ payload => payloadFits payload && payload != [0]
  | .clearCaptureAll _ => true
  | .relearn _ payload => payloadFits payload
  | .resetPlan _ payload => payloadFits payload
  | .restart _ payload => payloadFits payload
  | .resetHold => true
  | .fullReset _ => true
  | .slotEnd _ => true
  | .sensorFaultPresent _ => true
  | .sensorFaultEnds _ => true
  | .deadTimeTimeout _ => true
  | .stuckClosedWindow _ => true
  | .stuckOpenWindow _ => true
  | .sourceTimeout => true
  | .settleEnd => true
  | .retryExpiry _ _ => true
  | .pendingStartServed => true
  | .frameEnd _ => true
  | .autosaveCheck => true
  | .postponedAutosave => true
  | .roomDemandTimeout _ => true
  | .planResetBoundary _ => true
  | .boostTimeElapsed _ => true
  | .inrushLimit _ _ onFor => onFor < 100
  | .overcurrentDetected _ _ driven => 1 ≤ driven
  | .openLoadDetected _ _ driven => 1 ≤ driven
  | .openLoadRecovered _ _ driven => 1 ≤ driven
  | .followerFaultRelease loop => loop.val % 2 == 1
  | .supplyFallsLow millivolts => millivolts < 19500
  | .supplyReturns millivolts => 21000 < millivolts
  | .drivePeriodEnd _ => true

end Sys2Proof
end

