-- ==== Sys2Proof/Certificates/Slice0/Obligations.lean ====
section
/-! DEFINITION. The statements about the model, for the provers. Each docstring names the rule it speaks for; a statement that rests on a choice
of the model names its log entry. -/

section Statements

open Sys2Proof Sys2Proof.Machine

/-! ### The step, the resets and the soundness laws -/

/-- A step runs the command at the front of the queue, on the queue's rest; on an empty queue the part idles (log 1). -/
def Obligations.StepRunsTheFrontCommand : Prop :=
  (∀ (c : Instr) (rest : List Instr) (s : State), step (s.withPending (c :: rest)) = exec c (s.withPending rest))
    ∧ ∀ s : State, step (s.withPending []) = .next (s.withPending [])

/-- The state after reset keeps every law that the next seven statements carry through a step. -/
def Obligations.ResetIsSound : Prop :=
  State.reset.mailSound ∧ State.reset.learnedSound ∧ State.reset.driveSound ∧ State.reset.listSound ∧ State.reset.flowSound
    ∧ State.reset.settingsSound ∧ State.reset.carrySound

/-- R165, R166: no command breaks the law of the mail queues: at most two messages, none from the master itself, and MAIL pending exactly while
there is one. -/
def Obligations.StepKeepsMail : Prop := ∀ s t : State, s.mailSound → step s = .next t → t.mailSound

/-- R106, with R3, R95 and R100: k stays within 64..1024, and D, the dead slots and a measurement in progress within their ranges. -/
def Obligations.StepKeepsLearnedValues : Prop :=
  State.reset.learnedSound ∧ ∀ s t : State, s.learnedSound → step s = .next t → t.learnedSound

/-- R112, R120, R122, R124, R36: no command leaves a channel driven that has a block cause: not under a low supply, nor a flow shutdown, nor a
CLOSED hold, nor in the reset hold. -/
def Obligations.StepKeepsChannels : Prop := ∀ s t : State, s.driveSound → step s = .next t → t.driveSound

/-- R150: the fault list stays within 32 entries, one for each condition record. -/
def Obligations.StepKeepsFaultList : Prop := ∀ s t : State, s.listSound → step s = .next t → t.listSound

/-- R67: the flow request stays between the limits in force. -/
def Obligations.StepKeepsFlowRequest : Prop := ∀ s t : State, s.flowSound → step s = .next t → t.flowSound

/-- R9, R24 and the clamps of the other tables: every setting stays in its range, no loop comes to stand in two room lists nor in two pins. -/
def Obligations.StepKeepsSettings : Prop := ∀ s t : State, s.settingsSound → step s = .next t → t.settingsSound

/-- R61, R62, R85: with sound settings and pins, the length of a loop's run and its carry stay at 48 together: through placements, trims, top-up
re-runs, runs ended and resets. -/
def Obligations.StepKeepsCarries : Prop := ∀ s t : State, s.settingsSound → s.carrySound → step s = .next t → t.carrySound

/-- R36, R154: commands that find nothing at work: in the reset hold, all but the reset itself; at a port that is REPLYING, every request. -/
def Obligations.CommandsNotTakenDoNothing : Prop :=
  (∀ (c : Instr) (s : State), s.mode = .held → c ≠ .resetHold → (∀ mv, c ≠ .fullReset mv) → exec c s = .next s)
    ∧ ∀ (c : Instr) (m : Master) (kind : Byte) (payload : List Byte) (s : State),
        requestIn c = some (m, kind, payload) → (s.ports.get m).state = .replying → exec c s = .next s

/-- R22, R36: the ways into a reset. RESET PLAN and RESTART are answered at once and wait, the one for the next boundary, the other for the end of its
reply. In the reset hold every channel is de-energised, the attention lines are released and a save in flight is abandoned; that the ports are empty
there is log 20's choice. -/
def Obligations.ResetsAreAskedForAndHeld : Prop :=
  ∀ s : State,
    (s.listens .service →
      exec (.resetPlan .service []) s = .next (({ s with clock := { s.clock with resetPlan := true } } : State).answered .service .ok [])
        ∧ exec (.restart .service []) s = .next (({ s with restartPending := true } : State).answered .service .ok []))
      ∧ ∃ t : State, exec .resetHold s = .next t
        ∧ t = { s with mode := .held, restartPending := false, ports := t.ports, channels := t.channels, store := { s.store with save := none } }
        ∧ (∀ m, t.attention m = false ∧ t.ports.get m = ⟨.idle, [], false, none⟩)
        ∧ ∀ l, t.energised l = false ∧ (t.channels.get l).state = .idle

/-- R18, R31, R36 to R38, R51, R93, R111, R127, R138, R149, R153, R157, R167: a full reset starts every block from the image it finds, and frame 0
begins with the placement of what each room's fallback asks. The fault list is empty, or holds the STORE_INVALID entry and then that of SUPPLY_LOW.
With the supply above 21.0 V a channel is started where its run covers slot 0 and is IDLE elsewhere; with a lower one every channel is BLOCKED. The
source has the autonomous limits. That FULL_RESET is performed from a running part too is log 20's choice, and that the count of draws goes on is log
8's. -/
def Obligations.FullResetStartsEveryBlock : Prop :=
  ∀ (s : State) (mv : Nat), ∃ t : State, exec (.fullReset mv) s = .next t
    ∧ t.mode = .running ∧ t.restartPending = false ∧ t.clock = ⟨0, 0, false⟩
    ∧ (∀ m, t.ports.get m = ⟨.idle, [], false, none⟩)
    ∧ (∀ m, (t.notices.get m).mail = [] ∧ (t.notices.get m).enabled = 0xFFF ∧ (t.notices.get m).pending &&& Kind.started.bit ≠ 0
        ∧ (t.notices.get m).pending &&& Kind.frame.bit = 0 ∧ (t.notices.get m).pending &&& Kind.adopted.bit = 0)
    ∧ (let content := if s.store.image.valid then clampContent s.store.image.content else defaultContent;
        t.store.staged = content.settings ∧ t.store.inForce = content.settings
          ∧ ∀ l, (t.balance.get l).factor = content.factors.get l ∧ (t.balance.get l).deadTime = content.deadTimes.get l
            ∧ (t.balance.get l).sum = 0 ∧ (t.balance.get l).count = 0 ∧ (t.balance.get l).heat = 0 ∧ (t.balance.get l).relearned = false
            ∧ (t.balance.get l).measurement = none ∧ (t.balance.get l).limitHigh = false ∧ (t.balance.get l).limitLow = false
            ∧ (t.balance.get l).capture = ⟨false, 0, 0, 0, 0⟩
            ∧ (t.balance.get l).report = ⟨0, .tooFew, 0, 0, 0, 0, content.factors.get l, content.factors.get l⟩)
    ∧ t.heat = ⟨0, 0, 0, 0⟩
    ∧ (∀ ch, t.sensors.get ch = ⟨0, none, false, 0, 0, .none⟩)
    ∧ t.planner.ring = 0 ∧ t.planner.shortCount = 0 ∧ (∀ u, (t.slots.get u).short = false)
    ∧ (∀ l, (t.run l).continuation = false ∧ (t.plans.get l).idleFrames = 0 ∧ t.watch.get l = ⟨none, 0⟩)
    ∧ (∀ l, t.runLeader l = false → t.duty.get l = ⟨0, .none, 0, 0, 0⟩)
    ∧ (∀ l, t.runLeader l = true →
        (let d := t.duty.get l;
          d.rho = (d.demand * 48 * (t.balance.get l).factor + 12800) / 25600 ∧ d.clipped = min d.rho 48 ∧ d.carry ≤ d.clipped
            ∧ (t.run l).length + d.carry ≤ 48
            ∧ ((∀ r, l ∉ (t.store.inForce.rooms.get r).loops) → d.demand = 0 ∧ d.origin = .none)
            ∧ ∀ r, l ∈ (t.store.inForce.rooms.get r).loops → (∀ o, l ∈ (t.store.inForce.rooms.get o).loops → o = r) →
                d.demand = (t.store.inForce.rooms.get r).fallback ∧ d.origin = .fallback))
    ∧ (∃ v : State, v.sameInputs t ∧ (∀ l, (v.duty.get l).carry = 0) ∧ v.planner.ring = 0 ∧ t.hasPlanOf (v.computeDuty.place (.fill 24 false) true))
    ∧ (∀ key, key ≠ .part .storeInvalid → key ≠ .part .supplyLow → t.record key = ⟨false, .none, .none, 0⟩)
    ∧ t.faults = ⟨(if s.store.image.valid then [] else [⟨.part .storeInvalid, 0, 0, 0, 1⟩])
        ++ (if mv ≤ 21000 ∧ (t.response (.part .supplyLow)).mode ≠ .ignore then [⟨.part .supplyLow, 0, 0, 0, 1⟩] else []), false⟩
    ∧ (∀ l, (let c := t.channels.get l;
        let runs := (t.run (t.planLoop l)).covers 0;
        c.boostElapsed = 0 ∧ c.limited = 0 ∧ c.overcurrentTime = 0 ∧ c.openLoadTime = 0 ∧ c.recoveryTime = 0 ∧ c.pendingFor = .restart
          ∧ (21000 < mv → c.causes = ⟨false, false, false⟩ ∧ c.state = (if runs then .boost else .idle) ∧ c.phase = (if runs then .boost else .none)
              ∧ (t.balance.get l).deadSlots = if runs then (t.balance.get l).deadTime else 0)
          ∧ (mv ≤ 21000 → c.causes = ⟨false, false, true⟩ ∧ c.state = .blocked ∧ c.phase = .none ∧ (t.balance.get l).deadSlots = 0)))
    ∧ (let g := t.store.inForce.general;
        let high := min g.autoFlowMax g.floorCap;
        t.source = ⟨none, g.autoCeiling, 0, 0, g.autoFlowMin, g.autoFlowMax, none, 0, .fallback, ⟨g.autoCeiling, true, 0, min g.autoFlowMin high, high⟩,
          none, false, 0⟩)
    ∧ t.store.image = s.store.image ∧ t.store.save = none ∧ t.store.lastResult = .none ∧ t.store.learnedChanged = false
    ∧ t.store.autosaveCount = 0 ∧ t.store.autosavePostponed = false ∧ t.store.loadValid = s.store.image.valid
    ∧ t.present (.part .storeInvalid) = !s.store.image.valid
    ∧ (∀ r, t.rooms.get r = ⟨0, .none, 0, 0⟩) ∧ (∀ p, t.pins.get p = freePin)
    ∧ t.source.posted = none ∧ t.source.view = .fallback ∧ t.source.age = 0 ∧ t.flowRequest = t.source.limits.flowLow
    ∧ t.supply.low = decide (mv ≤ 21000) ∧ t.present (.part .supplyLow) = decide (mv ≤ 21000)
    ∧ (mv ≤ 21000 → ∀ l, t.energised l = false)
    ∧ t.draws = s.draws ∧ t.pending = s.pending

/-! ### The ports (10) -/

/-- R154: what a byte does at its port, in each of the port's states, and nothing anywhere else; the bytes of a frame, sent one after the other to an IDLE
port, stand in its buffer in the order sent; a malformed frame gets no reply: its bytes are dropped, the port returns to IDLE, and nothing else changes;
a port that is not RECEIVING has no frame to end (log 3). -/
def Obligations.PortsCollectFrames : Prop :=
  (∀ (m : Master) (b : Byte) (good : Bool) (s : State), s.mode = .running →
      ∃ t : State, exec (.byteReceived m b good) s = .next t ∧ t = { s with ports := t.ports } ∧ t.otherPorts m s
        ∧ ((s.ports.get m).state = .idle → t.ports.get m = ⟨.receiving, [b], !good, none⟩)
        ∧ ((s.ports.get m).state = .receiving → (s.ports.get m).buffer.length < 52 →
            t.ports.get m = ⟨.receiving, (s.ports.get m).buffer ++ [b], (s.ports.get m).malformed || !good, (s.ports.get m).reply⟩)
        ∧ ((s.ports.get m).state = .receiving → 52 ≤ (s.ports.get m).buffer.length →
            t.ports.get m = ⟨.receiving, (s.ports.get m).buffer, true, (s.ports.get m).reply⟩)
        ∧ ((s.ports.get m).state = .replying → t = s))
    ∧ (∀ (m : Master) (bytes : List Byte) (rest : List Instr) (s : State), s.mode = .running → (s.ports.get m).state = .idle →
      1 ≤ bytes.length → bytes.length ≤ 52 →
      Host.Core.run core bytes.length (s.withPending (bytes.map (fun b => Instr.byteReceived m b true) ++ rest))
        = .next ((s.setPort m ⟨.receiving, bytes, false, none⟩).withPending rest))
    ∧ (∀ (m : Master) (s : State), s.mode = .running →
      ((s.ports.get m).state ≠ .receiving → exec (.receiveGapElapsed m) s = .next s)
        ∧ ((s.ports.get m).state = .receiving →
            (let p := s.ports.get m;
              p.malformed = true ∨ p.buffer.length < 4 ∨ 48 < (p.buffer.getD 1 0).toNat ∨ p.buffer.length ≠ (p.buffer.getD 1 0).toNat + 4
                ∨ p.buffer.drop (p.buffer.length - 2) ≠ bytesOf 2 (crc (p.buffer.take (p.buffer.length - 2))).toNat) →
            exec (.receiveGapElapsed m) s = .next (s.setPort m ⟨.idle, [], false, none⟩)))

/-- R154 to R156, 10.3 to 10.5: a port that holds the frame of a request, when the idle gap ends it, does what the request's own command does: the
length, the check, the kind code and the table id of the frame lose nothing. -/
def Obligations.RequestFrameIsItsCommand : Prop :=
  ∀ (c : Instr) (m : Master) (kind : Byte) (payload : List Byte) (reply : Option Reply) (s : State),
    c.wellFormed = true → requestIn c = some (m, kind, payload) → s.mode = .running →
    s.ports.get m = ⟨.receiving, requestFrame kind payload, false, reply⟩ → exec (.receiveGapElapsed m) s = exec c s

/-- R36, R157: the end of a reply returns its port to IDLE; the end of the reply to a RESTART takes the part into reset, where it lies as RESET_HOLD
leaves it (log 20). A port that is not REPLYING has no reply to end: nothing changes (log 3). -/
def Obligations.ReplySentFreesThePort : Prop :=
  ∀ (m : Master) (s : State), s.mode = .running →
    ((s.ports.get m).state ≠ .replying → exec (.replySent m) s = .next s)
      ∧ ((s.ports.get m).state = .replying → (m ≠ .service ∨ s.restartPending = false) →
          exec (.replySent m) s = .next (s.setPort m ⟨.idle, [], false, none⟩))
      ∧ ((s.ports.get m).state = .replying → m = .service → s.restartPending = true → exec (.replySent m) s = exec .resetHold s)

/-- R156: the checks that apply to every request, in their order: a kind outside the request table is refused with BAD_KIND, an owned request from
another master's port with NOT_OWNER, and a payload length that the table of 10.3 does not allow with BAD_LENGTH. Nothing else changes. -/
def Obligations.RequestsAreCheckedInOrder : Prop :=
  ∀ (c : Instr) (m : Master) (kind : Byte) (payload : List Byte) (s : State),
    c.wellFormed = true → requestIn c = some (m, kind, payload) → s.listens m →
    (kind.toNat = 0 ∨ 16 < kind.toNat → exec c s = .next (s.answered m .badKind []))
      ∧ ((∃ owner, ownerOf kind.toNat = some owner ∧ m ≠ owner) → exec c s = .next (s.answered m .notOwner []))
      ∧ ((∀ owner, ownerOf kind.toNat = some owner → m = owner) → lengthAllowed kind.toNat payload.length = false →
          exec c s = .next (s.answered m .badLength []))

/-- R156: a request answered with any status but OK, CLAMPED and STILL_ACTIVE has no effect on the part's state beyond its reply. -/
def Obligations.RefusedRequestsChangeNothing : Prop :=
  ∀ (c : Instr) (m : Master) (kind : Byte) (payload : List Byte) (s t : State) (r : Reply),
    requestIn c = some (m, kind, payload) → s.listens m → exec c s = .next t → (t.ports.get m).reply = some r →
    r.status ≠ .ok → r.status ≠ .clamped → r.status ≠ .stillActive → t = s.answered m r.status []

/-- R157: every request taken is answered at its own port, with the sender's pending set as its effects leave it; a payload comes back only with OK
from READ TABLE and TAKE MAIL, and fits a reply frame. The other ports, the slot and the queue are not touched. At a port that is RECEIVING the command
ends that reception: it acts as it does at the port IDLE (log 4's choice). -/
def Obligations.EveryRequestIsAnswered : Prop :=
  ∀ (c : Instr) (m : Master) (kind : Byte) (payload : List Byte) (s : State),
    c.wellFormed = true → requestIn c = some (m, kind, payload) → s.listens m → s.mailSound →
    ∃ (t : State) (r : Reply), exec c s = .next t ∧ t.ports.get m = ⟨.replying, [], false, some r⟩ ∧ r.pending = (t.notices.get m).pending
      ∧ r.payload.length ≤ 48 ∧ (r.payload ≠ [] → r.status = .ok ∧ (kind = 1 ∨ kind = 5))
      ∧ t.otherPorts m s ∧ t.mode = .running ∧ t.clock.slot = s.clock.slot ∧ t.clock.frame = s.clock.frame ∧ t.pending = s.pending
      ∧ ((s.ports.get m).state = .receiving → exec c (s.setPort m ⟨.idle, [], false, none⟩) = .next t)

/-- R158: READ TABLE with a table that exists, a view it has and a first index within it answers OK with whole records from that index on, as many
as are asked for, are there and fit; with no such table, no such view or a first index past the records it answers BAD_INDEX. It changes nothing but
the port. -/
def Obligations.ReadTableReturnsWholeRecords : Prop :=
  ∀ (m : Master) (id view first count : Byte) (s : State), s.listens m →
    (let c := Instr.readTable m [id, view, first, count];
      (tableOf id.toNat = none → exec c s = .next (s.answered m .badIndex []))
        ∧ ∀ table, tableOf id.toNat = some table →
          (let records := s.recordsOf table (view.toNat == 1);
            let header := s.headerOf table;
            let viewed := table.hasViews = true → view.toNat ≤ 1;
            let within := first.toNat < records.length ∨ (table = .faults ∧ first.toNat = records.length);
            (¬ viewed ∨ ¬ within → exec c s = .next (s.answered m .badIndex []))
              ∧ (viewed → within →
                  ∃ n : Nat,
                    exec c s = .next (s.answered m .ok ([first, BitVec.ofNat 8 n] ++ header ++ ((records.drop first.toNat).take n).flatten))
                      ∧ n ≤ count.toNat ∧ n ≤ records.length - first.toNat
                      ∧ 2 + header.length + ((records.drop first.toNat).take n).flatten.length ≤ 48
                      ∧ (n < count.toNat → n < records.length - first.toNat →
                          48 < 2 + header.length + ((records.drop first.toNat).take (n + 1)).flatten.length))))

/-- R160, with the layouts of 10.4 and 10.5, R1, R8, R12, R25, R50, R92, R103, R108, R110, R137, R140 and R152: the fields of the records that READ
TABLE returns, by their widths in bytes, each most significant byte first. A value wider than its field shows its low bytes. The position codes of FAULT
RESPONSES are log 18's, the zeros of a check or measurement that is not armed log 16's, the run of a follower its leader's with the follower's own flags
(log 24). That PLAN BY LOOP's held open field is the OPEN hold as it stands when the request is taken is log 38's choice. GENERAL's first record is
WriteGeneralStagesTheRecord's. -/
def Obligations.RecordsHoldTheirFields : Prop :=
  ∀ (s : State) (inForce : Bool),
    (let v := if inForce then s.store.inForce else s.store.staged;
      let record (table : Table) (index : Nat) : List Byte := (s.recordsOf table inForce).getD index [];
      let signed (x : Int) : Nat := (x % 65536).toNat;
      let modes : List LoopMode := [.off, .run, .follow];
      let kinds : List RunKind := [.none, .pinned, .ordinary, .exercise, .topUp];
      let places (loops : List LoopNo) : List (Nat × Nat) :=
        [(1, loops.length), (1, (loops.map Fin.val).getD 0 0), (1, (loops.map Fin.val).getD 1 0), (1, (loops.map Fin.val).getD 2 0),
         (1, (loops.map Fin.val).getD 3 0)];
      HasFields (record .general 1)
          [(1, s.store.inForce.general.slotLength), (1, s.clock.slot.val), (2, s.clock.frame.val), (1, (!s.store.loadValid).toNat),
           (1, s.store.save.isSome.toNat), (1, [SaveResult.none, .ok, .failed].idxOf s.store.lastResult),
           (1, [none, some SaveKind.manual, some .auto].idxOf s.store.lastKind), (2, s.store.lastFrame.val), (1, s.store.learnedChanged.toNat),
           (1, s.store.autosaveCount), (1, s.store.autosavePostponed.toNat)]
        ∧ (∀ l : LoopNo, HasFields (record .loopSettings l.val)
            (let x := v.loops.get l;
              [(1, modes.idxOf x.mode), (1, x.weight), (1, x.designSpread), (1, x.topUpEligible.toNat), (1, x.returnSensorPresent.toNat),
               (1, x.stuckClosedCheck.toNat), (1, x.stuckOpenCheck.toNat)]))
        ∧ (∀ r : Fin 16, HasFields (record .rooms r.val)
            (places (v.rooms.get r).loops ++ [(1, (v.rooms.get r).fallback), (1, (s.rooms.get r).posted),
              (1, [DemandState.none, .fresh, .stale].idxOf (s.rooms.get r).state), (1, (s.rooms.get r).age)]))
        ∧ (∀ p : Fin 6, HasFields (record .pins p.val)
            ((1, (s.pins.get p).isSet.toNat) :: places (s.pins.get p).loops ++ [(1, (s.pins.get p).start), (1, (s.pins.get p).length)]))
        ∧ (∀ l : LoopNo, HasFields (record .loopState l.val)
            (let d := s.duty.get l;
              let p := s.plans.get l;
              let b := s.balance.get l;
              let w := s.watch.get l;
              let c := s.channels.get l;
              let r := s.run (s.planLoop l);
              [(1, l.val), (1, [EffMode.off, .single, .leader, .following].idxOf (s.effMode l)), (1, d.demand),
               (1, [Origin.posted, .fallback, .none].idxOf d.origin), (1, d.rho), (1, d.carry), (1, d.clipped), (1, kinds.idxOf r.kind),
               (1, if r.kind = .none then 0 else r.first), (1, if r.kind = .none then 0 else r.last),
               (1, setOf [p.flags.deferred, p.flags.shortened, p.flags.overweight, p.flags.demoted, b.limitHigh, b.limitLow, r.continuation,
                  b.relearned]),
               (2, p.idleFrames), (3, b.sum), (1, b.count), (1, b.deadSlots), (2, b.factor), (1, b.deadTime), (1, w.check.isSome.toNat),
               (2, signed ((w.check.map StuckCheck.startReturn).getD 0)), (2, signed ((w.check.map StuckCheck.startFlow).getD 0)),
               (1, (w.check.map StuckCheck.slots).getD 0), (1, w.openCount),
               (1, [SafePosition.none, .closed, .opened, .planned].idxOf (s.hold l)),
               (1, setOf [s.present (.loop .driveOvercurrent l), s.present (.loop .driveOpen l), s.present (.loop .stuckClosed l),
                  s.present (.loop .stuckOpen l), s.present (.loop .returnSensor l)]),
               (1, [ChannelState.idle, .pending, .boost, .hold, .safeOpen, .blocked].idxOf c.state),
               (1, [DrivePhase.none, .boost, .hold].idxOf c.phase), (1, setOf [c.causes.fault, c.causes.shutdown, c.causes.supply]),
               (1, [PendingFor.restart, .safeOpen].idxOf c.pendingFor), (2, c.boostElapsed), (2, c.limited)]))
        ∧ (∀ u : Fin 48, HasFields (record .planBySlot u.val)
            (let p := s.slots.get u;
              [(1, u.val), (2, p.weight), (1, p.starts), (1, if u = s.clock.slot then s.supply.extraStarts else 0), (1, p.short.toNat),
               (3, p.openSet.toNat)]))
        ∧ (∀ l : LoopNo, HasFields (record .planByLoop l.val)
            (let r := s.run (s.planLoop l);
              let f := (s.plans.get l).flags;
              [(1, l.val), (1, kinds.idxOf r.kind), (1, if r.kind = .none then 0 else r.first), (1, if r.kind = .none then 0 else r.last),
               (1, r.continuation.toNat), (1, r.sequence), (1, [EndCause.asPlaced, .trimmed, .removed, .fault, .sourceOff].idxOf r.endCause),
               (1, r.placedLength), (1, setOf [f.deferred, f.shortened, f.overweight, f.demoted]), (1, (s.hold l == .opened).toNat)]))
        ∧ (∀ ch : Fin 26, HasFields (record .sensors ch.val)
            (let x := s.sensors.get ch;
              let result : Nat × Int := match x.result with
                | .valid a => (0, a)
                | .stale => (1, 0)
                | .none => (2, 0)
                | .absent => (3, 0)
                | .substituted a => (4, a);
              [(1, ch.val), (2, x.lastCode.toNat), (1, result.1), (2, signed result.2), (1, x.lastValid.isSome.toNat),
               (2, signed (x.lastValid.getD 0)), (1, x.stale.toNat), (1, x.invalidRun), (1, x.validRun), (1, (s.present (sensorKey ch)).toNat)]))
        ∧ HasFields (record .source 0)
            (let c := s.source;
              [(1, [View.heat, .dhw, .defrost, .off, .fallback].idxOf c.view),
               (1, [none, some SourceState.heat, some .dhw, some .defrost, some .off].idxOf c.posted), (1, c.age),
               (1, (s.present (.part .sourceSilent)).toNat), (1, c.settling.toNat), (1, c.settled), (2, c.limits.ceiling),
               (1, c.limits.floorApplies.toNat), (2, c.limits.floor), (2, c.limits.flowLow), (2, c.limits.flowHigh), (2, s.flowRequest),
               (2, c.ceiling), (2, c.floor), (2, c.defrostFloor), (2, c.flowMin), (2, c.flowMax), (1, c.flowTemp.isSome.toNat),
               (2, signed (c.flowTemp.getD 0)), (1, c.freshTemp.isSome.toNat), (1, s.planner.shortCount), (2, s.heat.frame.val),
               (4, s.heat.manifoldA), (4, s.heat.manifoldB), (4, s.heat.house)])
        ∧ HasFields (s.headerOf .faults) [(1, s.faults.overflow.toNat), (1, s.faults.entries.length)]
        ∧ (∀ (i : Nat) (e : FaultEntry), s.faults.entries[i]? = some e → HasFields (record .faults i)
            (let r := s.record e.key;
              [(1, e.key.classNo.val), (1, e.key.subjectNo),
               (1, if r.present then 0 else if r.hold = .retry then 1 else if r.hold = .latch then 2 else 3), (2, e.firstFrame.val),
               (1, e.firstSlot.val), (2, e.lastFrame.val), (1, e.count)]))
        ∧ (∀ l : LoopNo, HasFields (record .captures l.val)
            (let c := (s.balance.get l).capture;
              let m := (s.balance.get l).measurement;
              [(1, l.val), (1, c.full.toNat), (1, c.measured), (2, c.frame.val), (1, c.slot.val), (2, signed c.startReturn),
               (1, m.isSome.toNat), (1, (m.map Measurement.slots).getD 0), (2, signed ((m.map Measurement.startReturn).getD 0))]))
        ∧ (∀ l : LoopNo, HasFields (record .frameReport l.val)
            (let r := (s.balance.get l).report;
              [(1, l.val), (2, r.frame.val), (1, [BalanceOutcome.updated, .tooFew, .relearned, .held, .notLeader].idxOf r.outcome), (3, r.sum),
               (1, r.count), (2, r.average), (3, r.heat), (2, r.before), (2, r.after)]))
        ∧ (∀ r : Fin 16, HasFields (record .frameReport (24 + r.val)) [(1, r.val), (2, s.heat.frame.val), (4, (s.rooms.get r).heat)])
        ∧ (let updated (from' upTo : Nat) : Nat := allLoops.countP fun l =>
              decide (from' ≤ l.val) && decide (l.val < upTo) && (s.balance.get l).report.outcome == .updated;
            HasFields (record .frameReport 40) [(2, s.heat.frame.val), (4, s.heat.manifoldA), (1, updated 0 12)]
              ∧ HasFields (record .frameReport 41) [(2, s.heat.frame.val), (4, s.heat.manifoldB), (1, updated 12 24)]
              ∧ HasFields (record .frameReport 42) [(2, s.heat.frame.val), (4, s.heat.house), (1, updated 0 24)])
        ∧ HasFields (record .conversion 0) (v.conversion.cells.map fun p => (2, signed p))
        ∧ (∀ k : Fin 10, HasFields (record .routes k.val)
            [(1, setOf [(v.routes.get k).room, (v.routes.get k).source, (v.routes.get k).service])])
        ∧ ∀ c : Fin 12, HasFields (record .responses c.val)
            [(1, c.val), (1, [ResponseMode.latch, .retry, .report, .ignore].idxOf (v.responses.get c).mode),
             (1, [SafePosition.closed, .opened, .planned, .none].idxOf (v.responses.get c).position)])

/-! ### Notices and mail (11) -/

/-- R161, R162: a raise adds its kind to the pending set of every master of its route in force, and to no other set; nothing else changes. R164: the
attention line of a master of a running part is asserted exactly where its pending and enable sets have a kind in common. -/
def Obligations.RaiseReachesItsRoute : Prop :=
  ∀ (k : Kind) (s : State),
    s.raise k = { s with notices := (s.raise k).notices }
      ∧ (∀ m, ((s.raise k).notices.get m).enabled = (s.notices.get m).enabled ∧ ((s.raise k).notices.get m).mail = (s.notices.get m).mail
          ∧ ∀ i : Nat, i < 12 → ((s.raise k).notices.get m).pending.getLsbD i
              = ((s.notices.get m).pending.getLsbD i || (k.bit.getLsbD i && (k.route s.store.inForce.routes).has m)))
      ∧ (s.mode = .running → ∀ m,
          (s.attention m = true ↔ ∃ i : Nat, i < 12 ∧ (s.notices.get m).pending.getLsbD i = true ∧ (s.notices.get m).enabled.getLsbD i = true))

/-- R163: ENABLE NOTICES replaces the sender's enable set with the 12 low bits of its payload; ACK NOTICES removes the kinds its payload names,
but MAIL, from the sender's pending set. Neither changes anything else. -/
def Obligations.NoticeRequestsSetTheSendersSets : Prop :=
  ∀ (m : Master) (hi lo : Byte) (s : State), s.listens m →
    (∃ t : State, exec (.enableNotices m [hi, lo]) s = .next (t.answered m .ok []) ∧ t = { s with notices := t.notices }
        ∧ (∀ o, o ≠ m → t.notices.get o = s.notices.get o)
        ∧ (t.notices.get m).pending = (s.notices.get m).pending ∧ (t.notices.get m).mail = (s.notices.get m).mail
        ∧ ∀ i : Nat, i < 12 → (t.notices.get m).enabled.getLsbD i = (hi ++ lo).getLsbD i)
      ∧ ∃ t : State, exec (.ackNotices m [hi, lo]) s = .next (t.answered m .ok []) ∧ t = { s with notices := t.notices }
        ∧ (∀ o, o ≠ m → t.notices.get o = s.notices.get o)
        ∧ (t.notices.get m).enabled = (s.notices.get m).enabled ∧ (t.notices.get m).mail = (s.notices.get m).mail
        ∧ ∀ i : Nat, i < 12 → (t.notices.get m).pending.getLsbD i
            = ((s.notices.get m).pending.getLsbD i && (!(hi ++ lo).getLsbD i || i == 11))

/-- R165, R166: mail. POST MAIL with 1..4 words: BAD_TARGET for no other master, FULL where the recipient holds two messages, and else one message at
the tail of the recipient's queue, which makes MAIL pending there. TAKE MAIL answers the oldest message of the sender's own queue, its sender's code
and then its words, and removes it; MAIL leaves the pending set with the last one. An empty queue answers EMPTY. -/
def Obligations.MailIsFirstInFirstOut : Prop :=
  ∀ (m : Master) (s : State), s.listens m →
    (∀ (recipient : Byte) (words : List (BitVec 16)), 1 ≤ words.length → words.length ≤ 4 →
      (let c := Instr.postMail m (recipient :: words.flatMap fun w => [w.extractLsb' 8 8, w.extractLsb' 0 8]);
        (2 < recipient.toNat ∨ recipient = masterCode m → exec c s = .next (s.answered m .badTarget []))
          ∧ ∀ addressee, recipient = masterCode addressee → addressee ≠ m →
            (2 ≤ (s.notices.get addressee).mail.length → exec c s = .next (s.answered m .full []))
              ∧ ((s.notices.get addressee).mail.length < 2 →
                  ∃ t : State, exec c s = .next (t.answered m .ok []) ∧ t = { s with notices := t.notices }
                    ∧ (∀ o, o ≠ addressee → t.notices.get o = s.notices.get o)
                    ∧ (t.notices.get addressee).mail = (s.notices.get addressee).mail ++ [⟨m, words⟩]
                    ∧ (t.notices.get addressee).enabled = (s.notices.get addressee).enabled
                    ∧ (t.notices.get addressee).pending = (s.notices.get addressee).pending ||| Kind.mail.bit)))
      ∧ ((s.notices.get m).mail = [] → exec (.takeMail m []) s = .next (s.answered m .empty []))
      ∧ ∀ first rest, (s.notices.get m).mail = first :: rest →
        ∃ t : State, exec (.takeMail m []) s
            = .next (t.answered m .ok (masterCode first.sender :: first.words.flatMap fun w => [w.extractLsb' 8 8, w.extractLsb' 0 8]))
          ∧ t = { s with notices := t.notices } ∧ (∀ o, o ≠ m → t.notices.get o = s.notices.get o)
          ∧ (t.notices.get m).mail = rest ∧ (t.notices.get m).enabled = (s.notices.get m).enabled
          ∧ ∀ i : Nat, i < 12 → (t.notices.get m).pending.getLsbD i
              = ((s.notices.get m).pending.getLsbD i && (i != 11 || !rest.isEmpty))

/-! ### Settings (01, 02, 03, 09) -/

/-- R24, R26, R160: WRITE SETTINGS naming GENERAL stages the 27 fields of its record, each brought into its range: the hold duty to a multiple of 10 below
it, the shutdown threshold at least 10 above the staged warn threshold. CLAMPED is answered exactly where some field is staged with another value than
written; then, and only then, does a read of the staged view give other bytes than the written ones. Another index is refused. The floor cap, the autonomous
flow limits and the flow thresholds are temperatures and hence signed (R160): a negative one is staged at the lower end. -/
def Obligations.WriteGeneralStagesTheRecord : Prop :=
  ∀ (index : Byte) (record : List Byte) (s : State), s.listens .service →
    (record.length ≠ 36 → exec (.writeGeneral .service index record) s = .next (s.answered .service .badLength []))
      ∧ (record.length = 36 → index ≠ 0 → exec (.writeGeneral .service index record) s = .next (s.answered .service .badIndex []))
      ∧ (record.length = 36 → index = 0 →
          ∃ (t : State) (status : Status), exec (.writeGeneral .service index record) s = .next (t.answered .service status [])
            ∧ t = { s with store := { s.store with staged := { s.store.staged with general := t.store.staged.general } } }
            ∧ (let written := fieldsOf generalWidths record;
                let value (i : Nat) : Int :=
                  if i ∈ [8, 10, 11, 23, 24] then (BitVec.ofNat 16 (written.getD i 0)).toInt else (written.getD i 0 : Nat);
                let staged := t.store.staged.general.fields;
                let low := [10, 1, 1, 96, 1, 1, 1, 2, 250, 50, 200, 200, 1, 2, 0, 10, 30, 100, 400, 1, 5, 5, 4, 300, 350, 10, 1];
                let high := [60, 12, 6, 4000, 8, 20, 20, 16, 550, 6000, 600, 600, 16, 48, 12, 120, 100, 600, 1000, 50, 50, 100, 24, 600, 650, 100, 240];
                (∀ i : Nat, i < 27 → i ≠ 16 → i ≠ 24 →
                    (staged.getD i 0 : Int) = clampInt (low.getD i 0 : Nat) (high.getD i 0 : Nat) (value i))
                  ∧ staged.getD 16 0 = clampNat 30 100 (written.getD 16 0 / 10 * 10)
                  ∧ (staged.getD 24 0 : Int) = max (clampInt 350 650 (value 24)) ((staged.getD 23 0 : Nat) + 10)
                  ∧ (status = .ok ∧ staged = written ∨ status = .clamped ∧ staged ≠ written))
            ∧ (t.recordsOf .general false = [record, t.statusBytes] ↔ status = .ok))

/-- R2, R26: WRITE SETTINGS naming LOOP SETTINGS stages one loop's record after the clamps of R2, and nothing else. -/
def Obligations.WriteLoopSettingsStagesTheRecord : Prop :=
  ∀ (index : Byte) (record : List Byte) (s : State), s.listens .service →
    (record.length ≠ 7 → exec (.writeLoopSettings .service index record) s = .next (s.answered .service .badLength []))
      ∧ (record.length = 7 → 23 < index.toNat →
          exec (.writeLoopSettings .service index record) s = .next (s.answered .service .badIndex []))
      ∧ ∀ (l : LoopNo) (mode weight spread top sensor closed opened : Byte), index.toNat = l.val →
          record = [mode, weight, spread, top, sensor, closed, opened] →
          ∃ (t : State) (status : Status), exec (.writeLoopSettings .service index record) s = .next (t.answered .service status [])
            ∧ t = { s with store := { s.store with staged := { s.store.staged with loops := t.store.staged.loops } } }
            ∧ (∀ o, o ≠ l → t.store.staged.loops.get o = s.store.staged.loops.get o)
            ∧ (let x := t.store.staged.loops.get l;
                x.weight = clampNat 1 250 weight.toNat ∧ x.designSpread = clampNat 20 100 spread.toNat
                  ∧ (mode.toNat = 0 ∨ 2 < mode.toNat → x.mode = .off) ∧ (mode.toNat = 1 → x.mode = .run)
                  ∧ (mode.toNat = 2 → x.mode = if l.val % 2 = 0 then .run else .follow)
                  ∧ x.topUpEligible = (top != 0) ∧ x.returnSensorPresent = (sensor != 0) ∧ x.stuckClosedCheck = (closed != 0)
                  ∧ x.stuckOpenCheck = (opened != 0))
            ∧ (let asWritten := 1 ≤ weight.toNat ∧ weight.toNat ≤ 250 ∧ 20 ≤ spread.toNat ∧ spread.toNat ≤ 100 ∧ mode.toNat ≤ 2
                  ∧ (mode.toNat = 2 → l.val % 2 = 1) ∧ top.toNat ≤ 1 ∧ sensor.toNat ≤ 1 ∧ closed.toNat ≤ 1 ∧ opened.toNat ≤ 1;
                (asWritten → status = .ok) ∧ (¬ asWritten → status = .clamped))

/-- R10, R26: WRITE SETTINGS naming ROOMS stages one room's list, in ascending order, and its fallback demand, at most 100, after the checks of R10 in
their order; a record of a length other than 6 is refused before them (R159). -/
def Obligations.WriteRoomsStagesTheRecord : Prop :=
  ∀ (index count a b c d fallback : Byte) (s : State), s.listens .service →
    (let command := Instr.writeRooms .service index [count, a, b, c, d, fallback];
      let named := [a, b, c, d].take count.toNat;
      let elsewhere (r : Fin 16) (x : Byte) : Prop := ∃ o l, o ≠ r ∧ l ∈ (s.store.staged.rooms.get o).loops ∧ l.val = x.toNat;
      (15 < index.toNat → exec command s = .next (s.answered .service .badIndex []))
        ∧ (index.toNat ≤ 15 → 4 < count.toNat → exec command s = .next (s.answered .service .badLength []))
        ∧ (index.toNat ≤ 15 → count.toNat ≤ 4 → (∃ x ∈ named, 23 < x.toNat) → exec command s = .next (s.answered .service .badIndex []))
        ∧ ∀ r : Fin 16, index.toNat = r.val → count.toNat ≤ 4 → (∀ x ∈ named, x.toNat ≤ 23) →
            (¬ named.Nodup ∨ (∃ x ∈ named, elsewhere r x) → exec command s = .next (s.answered .service .conflict []))
              ∧ (named.Nodup → (∀ x ∈ named, ¬ elsewhere r x) →
                  ∃ t : State, exec command s = .next (t.answered .service (if 100 < fallback.toNat then .clamped else .ok) [])
                    ∧ t = { s with store := { s.store with staged := { s.store.staged with rooms := t.store.staged.rooms } } }
                    ∧ (∀ o, o ≠ r → t.store.staged.rooms.get o = s.store.staged.rooms.get o)
                    ∧ (t.store.staged.rooms.get r).fallback = min fallback.toNat 100
                    ∧ (t.store.staged.rooms.get r).loops.Pairwise (· < ·)
                    ∧ ∀ l : LoopNo, l ∈ (t.store.staged.rooms.get r).loops ↔ ∃ x ∈ named, x.toNat = l.val))
      ∧ ∀ record : List Byte, record.length ≠ 6 → exec (.writeRooms .service index record) s = .next (s.answered .service .badLength [])

/-- R43, R26: WRITE SETTINGS naming CONVERSION stages 17 points, each brought into -30.0..+95.0 degrees. -/
def Obligations.WriteConversionStagesThePoints : Prop :=
  ∀ (index : Byte) (points : Tab 17 (BitVec 16)) (s : State), s.listens .service →
    (let record := points.cells.flatMap fun p => [p.extractLsb' 8 8, p.extractLsb' 0 8];
      (index ≠ 0 → exec (.writeConversion .service index record) s = .next (s.answered .service .badIndex []))
        ∧ (index = 0 →
            ∃ (t : State) (status : Status), exec (.writeConversion .service index record) s = .next (t.answered .service status [])
              ∧ t = { s with store := { s.store with staged := { s.store.staged with conversion := t.store.staged.conversion } } }
              ∧ (∀ i, t.store.staged.conversion.get i = clampInt (-300) 950 (points.get i).toInt)
              ∧ ((∀ i, -300 ≤ (points.get i).toInt ∧ (points.get i).toInt ≤ 950) → status = .ok)
              ∧ ((∃ i, (points.get i).toInt < -300 ∨ 950 < (points.get i).toInt) → status = .clamped)))
      ∧ ∀ record : List Byte, record.length ≠ 34 →
          exec (.writeConversion .service index record) s = .next (s.answered .service .badLength [])

/-- R162, R26: WRITE SETTINGS naming ROUTES stages one kind's set of masters from the three low bits of its byte. -/
def Obligations.WriteRoutesStagesARoute : Prop :=
  ∀ (index b : Byte) (s : State), s.listens .service →
    (9 < index.toNat → exec (.writeRoutes .service index [b]) s = .next (s.answered .service .badIndex []))
      ∧ (∀ record : List Byte, record.length ≠ 1 → exec (.writeRoutes .service index record) s = .next (s.answered .service .badLength []))
      ∧ ∀ k : Fin 10, index.toNat = k.val →
          ∃ t : State, exec (.writeRoutes .service index [b]) s = .next (t.answered .service .ok [])
            ∧ t = { s with store := { s.store with staged := { s.store.staged with routes := t.store.staged.routes } } }
            ∧ (∀ o, o ≠ k → t.store.staged.routes.get o = s.store.staged.routes.get o)
            ∧ t.store.staged.routes.get k = ⟨b.getLsbD 0, b.getLsbD 1, b.getLsbD 2⟩

/-- R140, R141, R26: WRITE SETTINGS naming FAULT RESPONSES stages one class's mode and position: what the class allows as written, and else the
class's default, each on its own. The codes of the positions are log 18's. -/
def Obligations.WriteFaultResponsesStagesTheResponse : Prop :=
  ∀ (index mode position : Byte) (s : State), s.listens .service →
    (11 < index.toNat → exec (.writeFaultResponses .service index [mode, position]) s = .next (s.answered .service .badIndex []))
      ∧ (∀ record : List Byte, record.length ≠ 2 →
          exec (.writeFaultResponses .service index record) s = .next (s.answered .service .badLength []))
      ∧ ∀ c : Fin 12, index.toNat = c.val →
          ∃ (t : State) (status : Status), exec (.writeFaultResponses .service index [mode, position]) s = .next (t.answered .service status [])
            ∧ t = { s with store := { s.store with staged := { s.store.staged with responses := t.store.staged.responses } } }
            ∧ (∀ o, o ≠ c → t.store.staged.responses.get o = s.store.staged.responses.get o)
            ∧ (let x := t.store.staged.responses.get c;
                let modeAllowed : Prop := ∃ w ∈ allowedModes c, w.code = mode.toNat;
                let positionAllowed : Prop := ∃ w ∈ allowedPositions c, w.code = position.toNat;
                (modeAllowed → x.mode.code = mode.toNat) ∧ (¬ modeAllowed → x.mode = (defaultResponses.get c).mode)
                  ∧ (positionAllowed → x.position.code = position.toNat)
                  ∧ (¬ positionAllowed → x.position = (defaultResponses.get c).position)
                  ∧ (modeAllowed → positionAllowed → status = .ok) ∧ (¬ (modeAllowed ∧ positionAllowed) → status = .clamped))

/-- R159, steps 1 to 3: a WRITE SETTINGS that reaches no settings table is refused: fewer than two bytes, no such table, or a table of the part's
own. That refusal is the whole of the command. -/
def Obligations.WriteSettingsOtherIsRefused : Prop :=
  ∀ (payload : List Byte) (s : State), (Instr.writeSettingsOther .service payload).wellFormed = true → s.listens .service →
    (payload.length < 2 → exec (.writeSettingsOther .service payload) s = .next (s.answered .service .badLength []))
      ∧ (2 ≤ payload.length → 14 < (payload.getD 0 0).toNat →
          exec (.writeSettingsOther .service payload) s = .next (s.answered .service .badIndex []))
      ∧ (2 ≤ payload.length → (payload.getD 0 0).toNat ≤ 14 →
          exec (.writeSettingsOther .service payload) s = .next (s.answered .service .notOwner []))

/-! ### Saving (02) -/

/-- R32, R34, R149: SAVE SETTINGS with no save in progress copies the settings in force with every k and D, notes the frame, clears the
learned-changed flag and takes the completion mark off the image; with one in progress it answers BUSY. The end of a save: OK leaves a valid image of
the snapshot and ends STORE_INVALID, FAILED leaves an invalid one (log 17 says with which content) and sets the learned-changed flag; either raises
SAVE_DONE; the load result stays that of the last full reset (R25). With no save in progress nothing ends (log 3). -/
def Obligations.SavesTakeAndWriteTheSnapshot : Prop :=
  (∀ s : State, s.listens .service →
      (∀ save, s.store.save = some save → exec (.saveSettings .service []) s = .next (s.answered .service .busy []))
        ∧ (s.store.save = none →
            ∃ (t : State) (content : ImageContent), exec (.saveSettings .service []) s = .next (t.answered .service .ok [])
              ∧ t = { s with store := { s.store with
                  save := some ⟨.manual, s.clock.frame, content⟩, learnedChanged := false,
                  image := { s.store.image with completionMark := false } } }
              ∧ content.settings = s.store.inForce ∧ t.store.image.valid = false
              ∧ ∀ l, content.factors.get l = (s.balance.get l).factor ∧ content.deadTimes.get l = (s.balance.get l).deadTime))
    ∧ (∀ (agrees : Bool) (s : State), s.mode = .running →
      (s.store.save = none → exec (.saveComplete agrees) s = .next s)
        ∧ ∀ save, s.store.save = some save →
            ∃ t : State, exec (.saveComplete agrees) s = .next t ∧ t = { s with store := t.store, conds := t.conds, notices := t.notices }
              ∧ t.store.save = none ∧ t.store.lastResult = (if agrees then .ok else .failed) ∧ t.store.lastKind = some save.kind
              ∧ t.store.lastFrame = save.frame ∧ t.store.staged = s.store.staged ∧ t.store.inForce = s.store.inForce
              ∧ t.store.autosaveCount = s.store.autosaveCount ∧ t.store.autosavePostponed = s.store.autosavePostponed
              ∧ t.store.loadValid = s.store.loadValid
              ∧ t.store.learnedChanged = (!agrees || s.store.learnedChanged)
              ∧ (agrees = true → t.store.image.valid = true ∧ t.store.image.content = save.snapshot ∧ t.present (.part .storeInvalid) = false)
              ∧ (agrees = false → t.store.image.valid = false ∧ t.conds = s.conds)
              ∧ (∀ key, key ≠ .part .storeInvalid → t.record key = s.record key)
              ∧ t.pendingAtRoute .saveDone)

/-- R35: the autosaves of a frame end. The count advances, and where it would reach 90 it becomes 0 and a check is made; an autosave is due where the
check finds the learned-changed flag set after that frame end's updates of k and D, or where one is postponed. Due with no save in progress, it starts with
the settings just adopted and the k and D just updated; a check's waits while a save is in progress. A postponed autosave and a check of one frame end are
one autosave (log 19). AUTOSAVE_CHECK and POSTPONED_AUTOSAVE are the frame ends so described, with codes that their rows leave open (log 26); at any other
moment nothing is done (log 3). -/
def Obligations.AutosavesStartOrWait : Prop :=
  ∀ s : State, s.mode = .running →
    (let closes (t : State) : Prop :=
        (let learned := s.store.learnedChanged || allLoops.any fun l =>
            (t.balance.get l).factor != (s.balance.get l).factor || (t.balance.get l).deadTime != (s.balance.get l).deadTime;
          let due := decide (89 ≤ s.store.autosaveCount) && learned;
          t.store.autosaveCount = (if 89 ≤ s.store.autosaveCount then 0 else s.store.autosaveCount + 1)
            ∧ t.store.staged = s.store.staged ∧ t.store.inForce = s.store.staged
            ∧ (s.store.save = none → due = true ∨ s.store.autosavePostponed = true →
                ∃ content : ImageContent, t.store.save = some ⟨.auto, s.clock.frame + 1, content⟩
                  ∧ content.settings = s.store.staged
                  ∧ (∀ l, content.factors.get l = (t.balance.get l).factor ∧ content.deadTimes.get l = (t.balance.get l).deadTime)
                  ∧ t.store.learnedChanged = false ∧ t.store.autosavePostponed = false
                  ∧ t.store.image = { s.store.image with completionMark := false })
            ∧ (s.store.save = none → due = false → s.store.autosavePostponed = false →
                t.store.save = none ∧ t.store.learnedChanged = learned ∧ t.store.autosavePostponed = false ∧ t.store.image = s.store.image)
            ∧ (s.store.save ≠ none →
                t.store.save = s.store.save ∧ t.store.learnedChanged = learned ∧ t.store.image = s.store.image
                  ∧ t.store.autosavePostponed = (due || s.store.autosavePostponed)));
      (s.clock.slot ≠ 47 ∨ s.store.autosaveCount < 89 → exec .autosaveCheck s = .next s)
        ∧ (s.clock.slot = 47 → 89 ≤ s.store.autosaveCount →
            (∃ codes, exec .autosaveCheck s = exec (.frameEnd codes) s) ∧ ∃ t : State, exec .autosaveCheck s = .next t ∧ closes t)
        ∧ (s.clock.slot ≠ 47 ∨ s.store.autosavePostponed = false ∨ s.store.save ≠ none → exec .postponedAutosave s = .next s)
        ∧ (s.clock.slot = 47 → s.store.autosavePostponed = true → s.store.save = none →
            (∃ codes, exec .postponedAutosave s = exec (.frameEnd codes) s) ∧ ∃ t : State, exec .postponedAutosave s = .next t ∧ closes t)
        ∧ ∀ codes, s.clock.slot = 47 → ∃ t : State, exec (.frameEnd codes) s = .next t ∧ closes t)

/-! ### Rooms, pins and the source (01, 04, 08) -/

/-- R52, R53, R54: POST DEMAND takes all its pairs or, where one names a room above 15, none. Each room named becomes FRESH with age 0 and the demand
of the last pair that names it, at most 100, and its ROOM_SILENT condition ends; every other room stays as it was. -/
def Obligations.PostDemandRefreshesRooms : Prop :=
  ∀ (pairs : List (Byte × Byte)) (s : State), s.listens .room → 1 ≤ pairs.length → pairs.length ≤ 8 →
    (let c := Instr.postDemand .room (pairs.flatMap fun p => [p.1, p.2]);
      ((∃ p ∈ pairs, 15 < p.1.toNat) → exec c s = .next (s.answered .room .badIndex []))
        ∧ ((∀ p ∈ pairs, p.1.toNat ≤ 15) →
            ∃ (t : State) (status : Status), exec c s = .next (t.answered .room status [])
              ∧ t = { s with rooms := t.rooms, conds := t.conds, notices := t.notices }
              ∧ ((∀ p ∈ pairs, p.2.toNat ≤ 100) → status = .ok) ∧ ((∃ p ∈ pairs, 100 < p.2.toNat) → status = .clamped)
              ∧ (∀ r : Fin 16, (∀ p ∈ pairs, p.1.toNat ≠ r.val) → t.rooms.get r = s.rooms.get r ∧ t.record (.room r) = s.record (.room r))
              ∧ (∀ (r : Fin 16) (before after : List (Byte × Byte)) (demand : Byte), pairs = before ++ (BitVec.ofNat 8 r.val, demand) :: after →
                  (∀ p ∈ after, p.1.toNat ≠ r.val) →
                  t.rooms.get r = { s.rooms.get r with posted := min demand.toNat 100, state := .fresh, age := 0 }
                    ∧ t.present (.room r) = false)
              ∧ ∀ key, (∀ r, key ≠ .room r) → t.record key = s.record key))

/-- R54, R55, R131, R136: the three timeouts of posts and settles. A used room whose age has reached the demand timeout becomes STALE, ROOM_SILENT
becomes present and ROOM_FALLBACK is raised; a source age at the source timeout makes SOURCE_SILENT present and raises SOURCE_FALLBACK; a settle that
has run its count ends. Each condition is listed by R143. Short of its timeout each leaves the state as it is (log 3). The flow request stays as it is
until the slot that begins with the limits of FALLBACK (log 12). -/
def Obligations.TimeoutsBringTheirConditions : Prop :=
  ∀ s : State, s.mode = .running →
    (∀ r : Fin 16, ((s.store.inForce.rooms.get r).loops = [] ∨ (s.rooms.get r).state = .stale ∨ (s.rooms.get r).age < s.general.demandTimeout) →
        exec (.roomDemandTimeout r) s = .next s)
      ∧ (∀ r : Fin 16, (s.store.inForce.rooms.get r).loops ≠ [] → (s.rooms.get r).state ≠ .stale →
          s.general.demandTimeout ≤ (s.rooms.get r).age → s.present (.room r) = false →
          ∃ t : State, exec (.roomDemandTimeout r) s = .next t
            ∧ t = { s with rooms := t.rooms, conds := t.conds, faults := t.faults, notices := t.notices }
            ∧ t.rooms.get r = { s.rooms.get r with state := .stale } ∧ (∀ o, o ≠ r → t.rooms.get o = s.rooms.get o)
            ∧ t.present (.room r) = true ∧ (∀ key, key ≠ .room r → t.record key = s.record key)
            ∧ ListedBy s t (.room r) ∧ t.pendingAtRoute .roomFallback)
      ∧ ((s.present (.part .sourceSilent) = true ∨ s.source.age < s.general.sourceTimeout) → exec .sourceTimeout s = .next s)
      ∧ (s.present (.part .sourceSilent) = false → s.general.sourceTimeout ≤ s.source.age →
          ∃ t : State, exec .sourceTimeout s = .next t
            ∧ t = { s with conds := t.conds, faults := t.faults, notices := t.notices, plans := t.plans, slots := t.slots,
                           planner := t.planner, duty := t.duty }
            ∧ t.present (.part .sourceSilent) = true ∧ t.nextView = .fallback
            ∧ (∀ key, key ≠ .part .sourceSilent → t.record key = s.record key)
            ∧ ListedBy s t (.part .sourceSilent) ∧ t.pendingAtRoute .sourceFallback
            ∧ ∀ u : Fin 48, u.val ≤ s.clock.slot.val → t.slots.get u = s.slots.get u)
      ∧ ((s.source.settling = false ∨ s.source.settled < s.general.settleCount) → exec .settleEnd s = .next s)
      ∧ (s.source.settling = true → s.general.settleCount ≤ s.source.settled →
          exec .settleEnd s = .next { s with source := { s.source with settling := false } })

/-- R13, R14, R15: SET PIN with 1..4 loop bytes: the checks in their order, and then the pin SET with its list ascending and its length brought into
1..(48 - start). A loop in a pin that is OFF or FOLLOWING counts its own weight (log 27). R16: DROP PIN makes a pin FREE and changes no other; a pin number
above 5 is refused. A pin that is FREE already is dropped with OK. -/
def Obligations.PinsAreSetAndDropped : Prop :=
  (∀ (pin start length : Byte) (loops : List Byte) (s : State), s.listens .room → 1 ≤ loops.length → loops.length ≤ 4 →
      (let c := Instr.setPin .room (pin :: start :: length :: loops);
        let elsewhere (l : LoopNo) : Bool :=
          (List.finRange 6).any fun p => p.val != pin.toNat && (s.pins.get p).isSet && (s.pins.get p).loops.contains l;
        ((5 < pin.toNat ∨ 47 < start.toNat ∨ (∃ x ∈ loops, 23 < x.toNat) ∨ ¬ loops.Nodup
            ∨ ∃ l : LoopNo, (∃ x ∈ loops, x.toNat = l.val) ∧ (s.loopSettings l).mode ≠ .run) →
            exec c s = .next (s.answered .room .badIndex []))
          ∧ ∀ (p : Fin 6) (named : List LoopNo), pin.toNat = p.val → start.toNat ≤ 47 → loops = named.map (fun l => BitVec.ofNat 8 l.val) →
              named.Nodup → (∀ l ∈ named, (s.loopSettings l).mode = .run) →
              (let pinned := allLoops.filter fun l => named.contains l || elsewhere l;
                let crowded := 5 * s.source.limits.ceiling / 8 < (pinned.map s.pairWeight).sum ∨ ∀ l, s.runLeader l = true → l ∈ pinned;
                ((∃ l ∈ named, elsewhere l = true) → exec c s = .next (s.answered .room .inUse []))
                  ∧ ((∀ l ∈ named, elsewhere l = false) → crowded → exec c s = .next (s.answered .room .noRoom []))
                  ∧ ((∀ l ∈ named, elsewhere l = false) → ¬ crowded →
                      ∃ (t : State) (status : Status), exec c s = .next (t.answered .room status []) ∧ t = { s with pins := t.pins }
                        ∧ (∀ o, o ≠ p → t.pins.get o = s.pins.get o)
                        ∧ (t.pins.get p).isSet = true ∧ (t.pins.get p).start = start.toNat
                        ∧ (t.pins.get p).loops.Pairwise (· < ·) ∧ (∀ l, l ∈ (t.pins.get p).loops ↔ l ∈ named)
                        ∧ (t.pins.get p).length = clampNat 1 (48 - start.toNat) length.toNat
                        ∧ (status = if (t.pins.get p).length = length.toNat then .ok else .clamped)))))
    ∧ (∀ (pin : Byte) (s : State), s.listens .room →
      (5 < pin.toNat → exec (.dropPin .room [pin]) s = .next (s.answered .room .badIndex []))
        ∧ ∀ p : Fin 6, pin.toNat = p.val →
            ∃ t : State, exec (.dropPin .room [pin]) s = .next (t.answered .room .ok []) ∧ t = { s with pins := t.pins }
              ∧ (∀ o, o ≠ p → t.pins.get o = s.pins.get o)
              ∧ t.pins.get p = ⟨false, [], 0, 0⟩ ∧ (s.pins.get p = ⟨false, [], 0, 0⟩ → t = s))

/-- R128, R129, R131, R134, R160: POST SOURCE with any choice of its six optional fields: the posted state, the fields present brought into their ranges, the
absent ones as they were, the floor at most the ceiling, the age 0, and SOURCE_SILENT ended. The view and the limits in force stay until the next slot,
as does the flow request (log 12), and the records of the slots that have begun. A post after which the view and the limits of the next slot are those in
force changes nothing of the plan (R134, log 10). A payload of another length than its presence byte asks, or of fewer than
two bytes, is refused. The three temperatures are signed (R160): a negative flow minimum or maximum is taken at the lower end. -/
def Obligations.PostSourceSetsThePostedValues : Prop :=
  ∀ (code : Byte) (temperature ceiling floor defrost low high : Option (BitVec 16)) (unread : Fin 4) (s : State), s.listens .source →
    (let marks : Byte := BitVec.ofNat 8 (temperature.isSome.toNat + 2 * ceiling.isSome.toNat + 4 * floor.isSome.toNat
        + 8 * defrost.isSome.toNat + 16 * low.isSome.toNat + 32 * high.isSome.toNat + 64 * unread.val);
      let fields : List Byte := [temperature, ceiling, floor, defrost, low, high].flatMap fun f => match f with
        | none => []
        | some w => [w.extractLsb' 8 8, w.extractLsb' 0 8];
      let value (f : Option (BitVec 16)) (lo hi old : Nat) : Nat := match f with
        | none => old
        | some w => clampNat lo hi w.toNat;
      let within (f : Option (BitVec 16)) (lo hi : Nat) : Prop := ∀ w, f = some w → lo ≤ w.toNat ∧ w.toNat ≤ hi;
      let temperatureIn (f : Option (BitVec 16)) (old : Nat) : Int := match f with
        | none => old
        | some w => clampInt 200 600 w.toInt;
      let warm (f : Option (BitVec 16)) : Prop := ∀ w, f = some w → 200 ≤ w.toInt ∧ w.toInt ≤ 600;
      (∀ bytes : List Byte, bytes.length ≠ fields.length →
          exec (.postSource .source (code :: marks :: bytes)) s = .next (s.answered .source .badLength []))
        ∧ exec (.postSource .source []) s = .next (s.answered .source .badLength [])
        ∧ exec (.postSource .source [code]) s = .next (s.answered .source .badLength [])
        ∧ (code.toNat = 0 ∨ 4 < code.toNat → exec (.postSource .source (code :: marks :: fields)) s = .next (s.answered .source .badIndex []))
        ∧ (1 ≤ code.toNat → code.toNat ≤ 4 →
            ∃ (t : State) (status : Status), exec (.postSource .source (code :: marks :: fields)) s = .next (t.answered .source status [])
              ∧ t = { s with source := t.source, conds := t.conds, notices := t.notices, plans := t.plans, slots := t.slots,
                             planner := t.planner, duty := t.duty }
              ∧ t.source = { s.source with posted := t.source.posted, flowTemp := t.source.flowTemp, ceiling := t.source.ceiling,
                                           floor := t.source.floor, defrostFloor := t.source.defrostFloor, flowMin := t.source.flowMin,
                                           flowMax := t.source.flowMax, age := 0 }
              ∧ postedCode t.source.posted = code.toNat
              ∧ t.source.flowTemp = (match temperature with
                  | none => s.source.flowTemp
                  | some w => some (clampInt (-300) 950 w.toInt))
              ∧ t.source.ceiling = value ceiling 50 6000 s.source.ceiling
              ∧ t.source.floor = min (value floor 0 3000 s.source.floor) t.source.ceiling
              ∧ t.source.defrostFloor = value defrost 0 3000 s.source.defrostFloor
              ∧ (t.source.flowMin : Int) = temperatureIn low s.source.flowMin ∧ (t.source.flowMax : Int) = temperatureIn high s.source.flowMax
              ∧ (let asWritten := (∀ w, temperature = some w → -300 ≤ w.toInt ∧ w.toInt ≤ 950) ∧ within ceiling 50 6000 ∧ within floor 0 3000
                    ∧ within defrost 0 3000 ∧ warm low ∧ warm high
                    ∧ value floor 0 3000 s.source.floor ≤ t.source.ceiling;
                  (asWritten → status = .ok) ∧ (¬ asWritten → status = .clamped))
              ∧ t.present (.part .sourceSilent) = false ∧ (∀ key, key ≠ .part .sourceSilent → t.record key = s.record key)
              ∧ (∀ u : Fin 48, u.val ≤ s.clock.slot.val → t.slots.get u = s.slots.get u)
              ∧ (s.clock.slot = 47 ∨ (t.nextView = s.source.view ∧ t.nextLimits = s.source.limits) →
                  t.plans = s.plans ∧ t.slots = s.slots ∧ t.planner = s.planner ∧ t.duty = s.duty)))

/-! ### The service tool's clears (01, 05, 06, 09) -/

/-- R151, R145, 10.3: CLEAR FAULTS with 1..16 pairs: a record named whose condition is absent and whose hold is no RETRY loses its hold and its entry; the
others stay as they are, and make the reply STILL_ACTIVE where named. The entries left keep their order. No channel's drive changes at once. A pair that
names no record is refused with BAD_INDEX, and then no pair is taken; a list of no pairs with BAD_LENGTH; a first byte other than 0 and 1 with BAD_INDEX,
and 0 with bytes after it with BAD_LENGTH. CLEAR FAULTS ALL does the same to every record, clears OVERFLOW, and answers STILL_ACTIVE where a record
remains. -/
def Obligations.ClearFaultsActsOnRecords : Prop :=
  (∀ s : State, s.listens .service →
      (let active (k : CondKey) : Prop := s.present k = true ∨ (s.record k).hold = .retry;
        (∀ keys : List CondKey, s.driveSound → 1 ≤ keys.length → keys.length ≤ 16 →
          ∃ (t : State) (status : Status),
            exec (.clearFaults .service (1 :: keys.flatMap fun k => [BitVec.ofNat 8 k.classNo.val, BitVec.ofNat 8 k.subjectNo])) s
                = .next (t.answered .service status [])
              ∧ t = { s with conds := t.conds, faults := t.faults, notices := t.notices, channels := t.channels, plans := t.plans,
                             slots := t.slots, planner := t.planner, duty := t.duty }
              ∧ ((∃ k ∈ keys, active k) → status = .stillActive) ∧ ((∀ k ∈ keys, ¬ active k) → status = .ok)
              ∧ (∀ k ∈ keys, ¬ active k → (t.record k).hold = .none ∧ t.present k = false ∧ t.listed k = false)
              ∧ (∀ k, k ∉ keys ∨ active k → t.record k = s.record k ∧ t.listed k = s.listed k)
              ∧ t.faults.entries.Sublist s.faults.entries ∧ t.faults.overflow = s.faults.overflow
              ∧ (∀ l, t.energised l = s.energised l))
          ∧ (∀ pairs : List (Byte × Byte), 1 ≤ pairs.length → pairs.length ≤ 16 →
              (∃ p ∈ pairs, 11 < p.1.toNat ∨ (p.1.toNat ≤ 4 ∧ 23 < p.2.toNat) ∨ (5 ≤ p.1.toNat ∧ p.1.toNat ≤ 7 ∧ 1 < p.2.toNat)
                ∨ (p.1.toNat = 9 ∧ 15 < p.2.toNat) ∨ ((p.1.toNat = 8 ∨ 10 ≤ p.1.toNat) ∧ 0 < p.2.toNat)) →
              exec (.clearFaults .service (1 :: pairs.flatMap fun p => [p.1, p.2])) s = .next (s.answered .service .badIndex []))
          ∧ exec (.clearFaults .service [1]) s = .next (s.answered .service .badLength [])
          ∧ (∀ (first : Byte) (rest : List Byte), rest.length % 2 = 0 → rest.length ≤ 32 →
              (1 < first.toNat → exec (.clearFaults .service (first :: rest)) s = .next (s.answered .service .badIndex []))
                ∧ (first = 0 → rest ≠ [] → exec (.clearFaults .service (first :: rest)) s = .next (s.answered .service .badLength [])))))
    ∧ (∀ s : State, s.listens .service → s.driveSound →
      (let active (k : CondKey) : Prop := s.present k = true ∨ (s.record k).hold = .retry;
        ∃ (t : State) (status : Status), exec (.clearFaultsAll .service) s = .next (t.answered .service status [])
          ∧ t = { s with conds := t.conds, faults := t.faults, notices := t.notices, channels := t.channels, plans := t.plans, slots := t.slots,
                         planner := t.planner, duty := t.duty }
          ∧ ((∃ k, active k) → status = .stillActive) ∧ ((∀ k, ¬ active k) → status = .ok)
          ∧ (∀ k, ¬ active k → (t.record k).hold = .none ∧ t.present k = false ∧ t.listed k = false)
          ∧ (∀ k, active k → t.record k = s.record k ∧ t.listed k = s.listed k)
          ∧ t.faults.entries.Sublist s.faults.entries ∧ t.faults.overflow = false
          ∧ (∀ l, t.energised l = s.energised l)))

/-- R102, 10.3: CLEAR CAPTURE empties the capture records named, or all 24, and touches neither a measurement in progress nor D; a list of no loop or of
more than 24 is refused, a loop above 23 too, and then no record is emptied; a first byte other than 0 and 1, and 0 with bytes after it, are refused; the
other masters are not its owner. -/
def Obligations.ClearCaptureEmptiesRecords : Prop :=
  ∀ (loops : List Byte) (s : State), s.listens .service → 1 ≤ loops.length → loops.length ≤ 24 →
    ((∃ x ∈ loops, 23 < x.toNat) → exec (.clearCapture .service (1 :: loops)) s = .next (s.answered .service .badIndex []))
      ∧ ((∀ x ∈ loops, x.toNat ≤ 23) →
          ∃ t : State, exec (.clearCapture .service (1 :: loops)) s = .next (t.answered .service .ok []) ∧ t = { s with balance := t.balance }
            ∧ (∀ l : LoopNo, (∃ x ∈ loops, x.toNat = l.val) → t.balance.get l = { s.balance.get l with capture := ⟨false, 0, 0, 0, 0⟩ })
            ∧ ∀ l : LoopNo, (∀ x ∈ loops, x.toNat ≠ l.val) → t.balance.get l = s.balance.get l)
      ∧ exec (.clearCapture .service [1]) s = .next (s.answered .service .badLength [])
      ∧ (∀ (first : Byte) (rest : List Byte), rest.length ≤ 24 →
          (1 < first.toNat → exec (.clearCapture .service (first :: rest)) s = .next (s.answered .service .badIndex []))
            ∧ (first = 0 → rest ≠ [] → exec (.clearCapture .service (first :: rest)) s = .next (s.answered .service .badLength [])))
      ∧ (∀ named : List Byte, 24 < named.length → exec (.clearCapture .service (1 :: named)) s = .next (s.answered .service .badLength []))
      ∧ (∀ (m : Master) (payload : List Byte), m ≠ .service → s.listens m → exec (.clearCapture m payload) s = .next (s.answered m .notOwner []))
      ∧ ∃ t : State, exec (.clearCaptureAll .service) s = .next (t.answered .service .ok []) ∧ t = { s with balance := t.balance }
          ∧ ∀ l, t.balance.get l = { s.balance.get l with capture := ⟨false, 0, 0, 0, 0⟩ }

/-- R20, R107, R34: RELEARN acts on each loop named, whatever its mode: k 256, D 2, both LIMIT flags clear, S and n 0, the relearned mark set; the
learned-changed flag is set. Every other loop, and all else of a loop named, stays as it was. A loop above 23 is refused, and no loop is relearned. -/
def Obligations.RelearnResetsTheLoopsNamed : Prop :=
  ∀ (loops : List Byte) (s : State), s.listens .service → 1 ≤ loops.length → loops.length ≤ 24 →
    ((∃ x ∈ loops, 23 < x.toNat) → exec (.relearn .service loops) s = .next (s.answered .service .badIndex []))
      ∧ ((∀ x ∈ loops, x.toNat ≤ 23) →
          ∃ t : State, exec (.relearn .service loops) s = .next (t.answered .service .ok [])
            ∧ t = { s with balance := t.balance, store := { s.store with learnedChanged := true } }
            ∧ (∀ l : LoopNo, (∃ x ∈ loops, x.toNat = l.val) →
                t.balance.get l = { s.balance.get l with factor := 256, deadTime := 2, limitHigh := false, limitLow := false, sum := 0, count := 0,
                                                         relearned := true })
            ∧ ∀ l : LoopNo, (∀ x ∈ loops, x.toNat ≠ l.val) → t.balance.get l = s.balance.get l)

/-! ### Sensors, measurements and the supervisor (03, 06, 09) -/

/-- R46, R47, R143, R144: the sensor-fault condition of a channel, decided from its counts: present from three invalid readings in a row where the
channel may carry it, ended by three valid ones or by its setting. A return channel's condition holds its loop by the response in force; its end
leaves the hold, and the list, as they are. A command whose decision does not change the condition does nothing (log 3). -/
def Obligations.SensorFaultsFollowTheCounts : Prop :=
  ∀ (ch : Fin 26) (s : State), s.mode = .running →
    (let x := s.sensors.get ch;
      let carries := s.mayCarry ch = true;
      (¬ carries ∨ x.invalidRun < 3 → s.present (sensorKey ch) = false → exec (.sensorFaultPresent ch) s = .next s)
        ∧ (s.present (sensorKey ch) = true → exec (.sensorFaultPresent ch) s = .next s)
        ∧ (carries → 3 ≤ x.invalidRun → s.present (sensorKey ch) = false →
            ∃ t : State, exec (.sensorFaultPresent ch) s = .next t ∧ t.present (sensorKey ch) = true ∧ ListedBy s t (sensorKey ch)
              ∧ HeldBy s t (sensorKey ch) ∧ (∀ l, sensorKey ch = .loop .returnSensor l → TakenUp s t .returnSensor l)
              ∧ t = { s with conds := t.conds, faults := t.faults, notices := t.notices, channels := t.channels, balance := t.balance,
                             watch := t.watch, plans := t.plans, slots := t.slots, planner := t.planner, duty := t.duty }
              ∧ t.sensors = s.sensors)
        ∧ (carries → x.validRun < 3 → s.present (sensorKey ch) = true → exec (.sensorFaultEnds ch) s = .next s)
        ∧ (¬ carries ∨ 3 ≤ x.validRun → s.present (sensorKey ch) = true →
            ∃ t : State, exec (.sensorFaultEnds ch) s = .next t ∧ t = { s with conds := t.conds, notices := t.notices }
              ∧ t.record (sensorKey ch) = { s.record (sensorKey ch) with present := false }
              ∧ ∀ key, key ≠ sensorKey ch → t.record key = s.record key))

/-- R100, R101: a dead-time measurement at the end of a slot of its period. The slots since start grow by one; a return that has risen by 0.5 K ends
it with a result, which smooths D at once and fills an empty capture record, raising CAPTURE; with no such return D and the record stay, and at 12
slots it has ended. Short of 12 the measurement stays armed while its channel stays energised; a channel energised before and after was otherwise
started anew at the boundary: its boost elapsed is 0 and its dead slots are D. A changed D sets the learned-changed flag. DEAD_TIME_TIMEOUT ends a
measurement that stands at 12 slots without a result; short of that it does nothing (log 3). -/
def Obligations.DeadTimeMeasurementsEnd : Prop :=
  ∀ (l : LoopNo) (s : State), s.mode = .running →
    ((∀ m, (s.balance.get l).measurement = some m → m.slots < 12) → exec (.deadTimeTimeout l) s = .next s)
      ∧ (∀ m, (s.balance.get l).measurement = some m → 12 ≤ m.slots →
          ∃ t : State, exec (.deadTimeTimeout l) s = .next t ∧ t = { s with balance := t.balance }
            ∧ t.balance.get l = { s.balance.get l with measurement := none } ∧ ∀ o, o ≠ l → t.balance.get o = s.balance.get o)
      ∧ ∀ codes, s.clock.slot ≠ 47 → s.clock.resetPlan = false →
          ∃ t : State, exec (.slotEnd codes) s = .next t
            ∧ (let b := s.balance.get l;
                let c := t.balance.get l;
                let rises (m : Measurement) : Prop := s.energised l = true ∧ ∃ now, (t.sensors.get (returnChannel l)).result = .valid now
                  ∧ m.startReturn + 5 ≤ now;
                ((∀ m, b.measurement = some m → ¬ rises m) → c.deadTime = b.deadTime ∧ c.capture = b.capture)
                  ∧ ∀ m, b.measurement = some m →
                      (rises m →
                        c.deadTime = (3 * b.deadTime + (m.slots + 1) + 2) / 4
                          ∧ (c.deadTime ≠ b.deadTime → t.store.learnedChanged = true)
                          ∧ (b.capture.full = true → c.capture = b.capture)
                          ∧ (b.capture.full = false →
                              c.capture = ⟨true, m.slots + 1, m.frame, m.slot, m.startReturn⟩ ∧ t.pendingAtRoute .capture)
                          ∧ ∀ m', c.measurement = some m' → m'.slots = 0)
                        ∧ (s.energised l = true → ¬ rises m → ∀ m', c.measurement = some m' →
                            m' = { m with slots := m.slots + 1 } ∧ m.slots + 1 < 12 ∨ m'.slots = 0)
                        ∧ (s.energised l = true → t.energised l = true → ¬ rises m → m.slots + 1 < 12 →
                            c.measurement = some { m with slots := m.slots + 1 }
                              ∨ ((t.channels.get l).boostElapsed = 0 ∧ (t.channels.get l).limited = 0 ∧ c.deadSlots = c.deadTime)))

/-- R146, R147: an armed check at the stuck window without a rise of 1.0 K makes STUCK_CLOSED present, and a stuck-open count at the window makes
STUCK_OPEN present; each is taken up by R143. A STUCK_CLOSED that closes its own channel ends with the energised period. Short of its window each command
does nothing (log 3). -/
def Obligations.StuckWindowsBringTheirConditions : Prop :=
  ∀ (l : LoopNo) (s : State), s.mode = .running →
    (let due (c : StuckCheck) : Prop := s.energised l = true ∧ s.general.stuckWindow ≤ c.slots
        ∧ ∀ now, s.returnReading l = some now → now < c.startReturn + 10;
      ((∀ c, (s.watch.get l).check = some c → ¬ due c) → exec (.stuckClosedWindow l) s = .next s)
        ∧ (∀ c, (s.watch.get l).check = some c → due c → s.present (.loop .stuckClosed l) = false →
            ∃ t : State, exec (.stuckClosedWindow l) s = .next t ∧ TakenUp s t .stuckClosed l
              ∧ (t.energised l = true → t.present (.loop .stuckClosed l) = true)
              ∧ (t.energised l = false → t.present (.loop .stuckClosed l) = false)
              ∧ t = { s with conds := t.conds, faults := t.faults, notices := t.notices, channels := t.channels, balance := t.balance,
                             watch := t.watch, plans := t.plans, slots := t.slots, planner := t.planner, duty := t.duty })
        ∧ ((s.watch.get l).openCount < s.general.stuckWindow → exec (.stuckOpenWindow l) s = .next s)
        ∧ (s.general.stuckWindow ≤ (s.watch.get l).openCount → s.present (.loop .stuckOpen l) = false →
            ∃ t : State, exec (.stuckOpenWindow l) s = .next t ∧ TakenUp s t .stuckOpen l ∧ t.present (.loop .stuckOpen l) = true
              ∧ t = { s with conds := t.conds, faults := t.faults, notices := t.notices, channels := t.channels, balance := t.balance,
                             watch := t.watch, plans := t.plans, slots := t.slots, planner := t.planner, duty := t.duty }))

/-- R144: a RETRY hold that has reached the retry time: released where its condition is absent; where it is present, applied anew as a recurrence under
the response then in force. Another record's hold stays as it is, and so does this one short of its time (log 3). That a record applied anew which is not
listed is tried for an entry there, or sets OVERFLOW, is log 34's choice. -/
def Obligations.RetryExpiryReleasesOrRenews : Prop :=
  ∀ (cls : LoopClass) (l : LoopNo) (s : State), s.mode = .running →
    (let key := CondKey.loop cls l;
      let r := s.record key;
      (r.hold ≠ .retry ∨ r.retrySlots < s.general.retryTime → exec (.retryExpiry cls l) s = .next s)
        ∧ (r.hold = .retry → s.general.retryTime ≤ r.retrySlots →
            ∃ t : State, exec (.retryExpiry cls l) s = .next t
              ∧ t = { s with conds := t.conds, faults := t.faults, notices := t.notices, channels := t.channels, balance := t.balance,
                             watch := t.watch, plans := t.plans, slots := t.slots, planner := t.planner, duty := t.duty }
              ∧ (t.record key).retrySlots = 0
              ∧ (r.present = false → (t.record key).hold = .none ∧ t.faults = s.faults)
              ∧ (r.present = true → ListedBy s t key)
              ∧ (r.present = true → (s.response key).mode = .retry →
                  (t.record key).hold = .retry ∧ (t.record key).position = (s.response key).position)
              ∧ (r.present = true → (s.response key).mode = .latch →
                  (t.record key).hold = .latch ∧ (t.record key).position = (s.response key).position)
              ∧ (r.present = true → (s.response key).mode ≠ .retry → (s.response key).mode ≠ .latch → (t.record key).hold = .none)
              ∧ (s.effMode l ≠ .following → s.hold l = .closed → t.hold l ≠ .closed → (t.channels.get l).causes.fault = false)
              ∧ ∀ k, k ≠ key → (t.record k).hold = (s.record k).hold ∧ (t.record k).position = (s.record k).position))

/-! ### The channels (07) -/

/-- R118: the start arbiter, run at the moment the command comes, from the budget that the slot's plan starts and extra starts leave (log 3's choice): only
PENDING channels start, and an IDLE follower with the leader whose RESTART drives it (log 36), each at most once, within the budget; a start is a full one
(R114, R95). A leader and a follower that wait for the same thing (log 15) start together or not at all: with two starts left when none waits before them
they start, with fewer they are passed over. The lowest PENDING loop of no pair starts wherever one start is left, and so does a leader waiting alone; with
none left nothing changes. -/
def Obligations.ArbiterServesPendingChannels : Prop :=
  ∀ s : State, s.mode = .running →
    ∃ t : State, exec .pendingStartServed s = .next t
      ∧ t = { s with channels := t.channels, balance := t.balance, watch := t.watch, supply := t.supply }
      ∧ t.supply.low = s.supply.low ∧ t.supply.planStarts = s.supply.planStarts
      ∧ (∀ l, t.channels.get l = s.channels.get l
          ∨ (((s.channels.get l).state = .pending
                ∨ (s.effMode l = .following ∧ (s.channels.get l).state = .idle ∧ (s.channels.get (partner l)).state = .pending
                  ∧ (s.channels.get (partner l)).pendingFor = .restart))
              ∧ (t.channels.get l).phase = .boost
              ∧ (t.channels.get l).state = (if (s.channels.get l).pendingFor = .restart then .boost else .safeOpen)
              ∧ (t.channels.get l).boostElapsed = 0 ∧ (t.channels.get l).limited = 0
              ∧ (t.balance.get l).deadSlots = (s.balance.get l).deadTime))
      ∧ t.supply.extraStarts = s.supply.extraStarts + allLoops.countP (fun l => t.channels.get l != s.channels.get l)
      ∧ (s.supply.planStarts + s.supply.extraStarts ≤ s.general.startBudget →
          t.supply.planStarts + t.supply.extraStarts ≤ s.general.startBudget)
      ∧ (s.general.startBudget ≤ s.supply.planStarts + s.supply.extraStarts → t = s)
      ∧ (∀ l, (s.channels.get l).state = .pending →
          (let first := ∀ o, o < l → (s.channels.get o).state ≠ .pending;
            let follower := s.channels.get (partner l);
            (s.effMode l = .leader → follower.state = .pending → follower.pendingFor = (s.channels.get l).pendingFor →
                (t.channels.get l = s.channels.get l ↔ t.channels.get (partner l) = follower)
                  ∧ (first → s.supply.planStarts + s.supply.extraStarts + 2 ≤ s.general.startBudget →
                      (t.channels.get l).phase = .boost ∧ (t.channels.get (partner l)).phase = .boost)
                  ∧ (s.general.startBudget < s.supply.planStarts + s.supply.extraStarts + 2 →
                      t.channels.get l = s.channels.get l ∧ t.channels.get (partner l) = follower))
              ∧ (s.effMode l = .single
                  ∨ (s.effMode l = .leader
                    ∧ (follower.state = .blocked ∨ (follower.state = .pending ∧ follower.pendingFor ≠ (s.channels.get l).pendingFor))) →
                  first → s.supply.planStarts + s.supply.extraStarts < s.general.startBudget → (t.channels.get l).phase = .boost)))

/-- R114, R115: the drive periods of one channel. A period that ends in the BOOST phase adds to boost elapsed; at the boost time the channel enters the
HOLD phase, a BOOST channel going to HOLD and a SAFE_OPEN one staying; each period begins with the switch on for its share. In the BOOST phase 1 ms of
driven time above the inrush limit, begun some ms into the period, turns the switch off at its end for the rest of the period and counts it; that the
command brings that millisecond and its place in the period is log 21's choice, the on-time and the cut are fields of log 22. No other channel and nothing
else changes. Where its trigger is absent a command does nothing (log 3). -/
def Obligations.DrivePeriodsBoostThenHold : Prop :=
  ∀ (l : LoopNo) (s : State), s.mode = .running →
    (let c := s.channels.get l;
      let g := s.general;
      (c.phase = .none → exec (.drivePeriodEnd l) s = .next s)
        ∧ (c.phase ≠ .none →
            ∃ t : State, exec (.drivePeriodEnd l) s = .next t ∧ t = { s with channels := t.channels } ∧ (∀ o, o ≠ l → t.channels.get o = s.channels.get o)
              ∧ (let d := t.channels.get l;
                  let elapsed := if c.phase = .boost then min (c.boostElapsed + 1) 1200 else c.boostElapsed;
                  d = { c with boostElapsed := elapsed, phase := d.phase, state := d.state, onTime := d.onTime, cut := false }
                    ∧ d.phase = (if c.phase = .boost ∧ elapsed < g.boostTime * 10 then .boost else .hold)
                    ∧ d.state = (if c.phase = .boost ∧ d.phase = .hold ∧ c.state = .boost then .hold else c.state)
                    ∧ d.onTime = if d.phase = .boost then 100 else g.holdDuty))
        ∧ (c.phase ≠ .boost ∨ c.boostElapsed < g.boostTime * 10 → exec (.boostTimeElapsed l) s = .next s)
        ∧ (c.phase = .boost → g.boostTime * 10 ≤ c.boostElapsed →
            ∃ t : State, exec (.boostTimeElapsed l) s = .next t ∧ t = { s with channels := t.channels } ∧ (∀ o, o ≠ l → t.channels.get o = s.channels.get o)
              ∧ t.channels.get l = { c with phase := .hold, state := (if c.state = .boost then .hold else c.state), onTime := g.holdDuty, cut := false })
        ∧ ∀ milliamps onFor : Nat,
            (c.phase ≠ .boost ∨ c.cut = true ∨ milliamps ≤ g.inrushLimit → exec (.inrushLimit l milliamps onFor) s = .next s)
              ∧ (c.phase = .boost → c.cut = false → g.inrushLimit < milliamps →
                  ∃ t : State, exec (.inrushLimit l milliamps onFor) s = .next t ∧ t = { s with channels := t.channels }
                    ∧ (∀ o, o ≠ l → t.channels.get o = s.channels.get o)
                    ∧ t.channels.get l = { c with cut := true, onTime := min (onFor + 1) c.onTime, limited := min (c.limited + 1) 1200 }))

/-- R116, R117, R143, R144: load sensing in driven time. The overcurrent time and the open-load time grow on their side of their thresholds and are 0 on
the other; past its limit a time hands its condition to the supervisor, which takes it up by R143; where that de-energises the channel, the condition has
ended with it. A channel that is not driven senses nothing. While DRIVE_OPEN is present and the channel is driven, its recovery time grows at or above the
threshold and is 0 below it; at the open-load time the condition ends, the hold and the list staying as they are. That the current comes as stretches of
driven ms, and that each command updates the timers of its own rule alone (OVERCURRENT_DETECTED leaves the open-load and recovery times as they are, the other
two leave the overcurrent time), is log 21's choice. That OPEN_LOAD_RECOVERED changes nothing, the open-load time included, where DRIVE_OPEN is absent, and that
each command does nothing on a channel that is not driven, is log 3's. -/
def Obligations.LoadSensingFindsAndEndsDriveFaults : Prop :=
  (∀ (l : LoopNo) (milliamps driven : Nat) (s : State), s.mode = .running →
      (let c := s.channels.get l;
        let g := s.general;
        (s.energised l = false → exec (.overcurrentDetected l milliamps driven) s = .next s ∧ exec (.openLoadDetected l milliamps driven) s = .next s)
          ∧ (s.energised l = true →
              (let time := if g.overcurrentThreshold < milliamps then c.overcurrentTime + driven else 0;
                (time ≤ g.overcurrentTime ∨ s.present (.loop .driveOvercurrent l) = true →
                    ∃ t : State, exec (.overcurrentDetected l milliamps driven) s = .next t ∧ t = { s with channels := t.channels }
                      ∧ (∀ o, o ≠ l → t.channels.get o = s.channels.get o) ∧ t.channels.get l = { c with overcurrentTime := time })
                  ∧ (g.overcurrentTime < time → s.present (.loop .driveOvercurrent l) = false →
                      ∃ t : State, exec (.overcurrentDetected l milliamps driven) s = .next t ∧ TakenUp s t .driveOvercurrent l
                        ∧ t = { s with conds := t.conds, faults := t.faults, notices := t.notices, channels := t.channels, balance := t.balance,
                                       watch := t.watch, plans := t.plans, slots := t.slots, planner := t.planner, duty := t.duty }
                        ∧ (t.energised l = true → t.present (.loop .driveOvercurrent l) = true ∧ (t.channels.get l).overcurrentTime = time)
                        ∧ (t.energised l = false → t.present (.loop .driveOvercurrent l) = false)))
                ∧ (let time := if milliamps < g.openLoadThreshold then c.openLoadTime + driven else 0;
                    let recovery := if milliamps < g.openLoadThreshold then 0 else c.recoveryTime;
                    (time ≤ g.openLoadTime * 100 ∨ s.present (.loop .driveOpen l) = true →
                        ∃ t : State, exec (.openLoadDetected l milliamps driven) s = .next t ∧ t = { s with channels := t.channels }
                          ∧ (∀ o, o ≠ l → t.channels.get o = s.channels.get o)
                          ∧ t.channels.get l = { c with openLoadTime := time, recoveryTime := recovery })
                      ∧ (g.openLoadTime * 100 < time → s.present (.loop .driveOpen l) = false →
                          ∃ t : State, exec (.openLoadDetected l milliamps driven) s = .next t ∧ TakenUp s t .driveOpen l
                            ∧ t = { s with conds := t.conds, faults := t.faults, notices := t.notices, channels := t.channels, balance := t.balance,
                                           watch := t.watch, plans := t.plans, slots := t.slots, planner := t.planner, duty := t.duty }
                            ∧ (t.energised l = true → t.present (.loop .driveOpen l) = true)
                            ∧ (t.energised l = false → t.present (.loop .driveOpen l) = false))))))
    ∧ (∀ (l : LoopNo) (milliamps driven : Nat) (s : State), s.mode = .running →
      (let c := s.channels.get l;
        let g := s.general;
        let key := CondKey.loop .driveOpen l;
        let time := if g.openLoadThreshold ≤ milliamps then c.recoveryTime + driven else 0;
        let open' := if g.openLoadThreshold ≤ milliamps then 0 else c.openLoadTime;
        (s.energised l = false ∨ s.present key = false → exec (.openLoadRecovered l milliamps driven) s = .next s)
          ∧ (s.energised l = true → s.present key = true → time < g.openLoadTime * 100 →
              ∃ t : State, exec (.openLoadRecovered l milliamps driven) s = .next t ∧ t = { s with channels := t.channels }
                ∧ (∀ o, o ≠ l → t.channels.get o = s.channels.get o)
                ∧ t.channels.get l = { c with recoveryTime := time, openLoadTime := open' })
          ∧ (s.energised l = true → s.present key = true → g.openLoadTime * 100 ≤ time →
              ∃ t : State, exec (.openLoadRecovered l milliamps driven) s = .next t
                ∧ t = { s with channels := t.channels, conds := t.conds, notices := t.notices }
                ∧ (∀ o, o ≠ l → t.channels.get o = s.channels.get o)
                ∧ t.channels.get l = { c with recoveryTime := 0, openLoadTime := open' }
                ∧ t.record key = { s.record key with present := false } ∧ ∀ k, k ≠ key → t.record k = s.record k)))

/-- R112, R125: a follower whose FAULT cause has waited for its leader's channel loses it once that channel is not driven and no CLOSED hold stands; with
no other cause it goes where R112 says, a run that a fault response ended calling for no channel (log 14). Until then nothing changes (log 3). -/
def Obligations.FollowerFaultReleases : Prop :=
  ∀ (l : LoopNo) (s : State), s.mode = .running →
    (let c := s.channels.get l;
      let waits : Prop := s.hold l = .closed ∨ (s.effMode l = .following ∧ s.energised (partner l) = true);
      (c.causes.fault = false ∨ waits → exec (.followerFaultRelease l) s = .next s)
        ∧ (c.causes.fault = true → ¬ waits →
            ∃ t : State, exec (.followerFaultRelease l) s = .next t ∧ t = { s with channels := t.channels } ∧ (∀ o, o ≠ l → t.channels.get o = s.channels.get o)
              ∧ (t.channels.get l).causes = { c.causes with fault := false }
              ∧ (c.causes.shutdown = true ∨ c.causes.supply = true → (t.channels.get l).state = c.state)
              ∧ (c.causes.shutdown = false → c.causes.supply = false → FreedTo s l (t.channels.get l))))

/-- R112, R120, R121: a supply below 19.5 V blocks every channel at once and lists SUPPLY_LOW, the plan standing as it is; a supply above 21.0 V takes
the SUPPLY cause from every channel and ends SUPPLY_LOW, starting none at once. A channel freed of its last cause goes where R112 says (log 14), the others
stay in their states. Between the two levels, and where the state is that already, nothing changes: a command whose level does not call for it does
nothing (log 3). -/
def Obligations.SupplyBlocksAndReturns : Prop :=
  ∀ (mv : Nat) (s : State), s.mode = .running →
    (s.supply.low = true ∨ 19500 ≤ mv → exec (.supplyFallsLow mv) s = .next s)
      ∧ (s.supply.low = false → mv < 19500 → s.present (.part .supplyLow) = false →
          ∃ t : State, exec (.supplyFallsLow mv) s = .next t
            ∧ t = { s with supply := { s.supply with low := true }, channels := t.channels, balance := t.balance, watch := t.watch,
                           conds := t.conds, faults := t.faults, notices := t.notices }
            ∧ (∀ l, t.energised l = false ∧ (t.channels.get l).state = .blocked ∧ (t.channels.get l).causes.supply = true
                ∧ (s.energised l = true → (t.balance.get l).measurement = none ∧ (t.watch.get l).check = none
                    ∧ t.present (.loop .driveOpen l) = false ∧ t.present (.loop .driveOvercurrent l) = false))
            ∧ t.present (.part .supplyLow) = true ∧ ListedBy s t (.part .supplyLow))
      ∧ (s.supply.low = false ∨ mv ≤ 21000 → exec (.supplyReturns mv) s = .next s)
      ∧ (s.supply.low = true → 21000 < mv →
          ∃ t : State, exec (.supplyReturns mv) s = .next t
            ∧ t = { s with supply := { s.supply with low := false }, channels := t.channels, conds := t.conds, notices := t.notices }
            ∧ t.present (.part .supplyLow) = false
            ∧ (∀ key, key ≠ .part .supplyLow → t.record key = s.record key)
            ∧ ∀ l, t.energised l = s.energised l ∧ (t.channels.get l).causes = { (s.channels.get l).causes with supply := false }
                ∧ (let c := s.channels.get l;
                    (c.causes = ⟨false, false, true⟩ → FreedTo s l (t.channels.get l))
                      ∧ (c.causes ≠ ⟨false, false, true⟩ → (t.channels.get l).state = c.state)))

/-! ### The boundaries (02, 05, 06) -/

/-- R21, R40 to R45, R48, R49, R131, R132, R135, R136: a slot end within a frame: the slot number advances, every channel takes its reading and shows
its slot result, the source age grows, and the slot that begins has the view and limits that the posted values and SOURCE_SILENT give, the posted flow
temperature where it is fresh (log 33), and the settle of R136. The settings, the rooms, the pins, the ports and the queue stay as they are; the count
of draws is log 8's. Where a frame end or a plan reset is due instead, SLOT_END is that boundary (log 3). -/
def Obligations.SlotEndAdvancesTheSlot : Prop :=
  ∀ (codes : Codes) (s : State), s.mode = .running →
    (s.clock.slot = 47 → exec (.slotEnd codes) s = exec (.frameEnd codes) s)
      ∧ (s.clock.slot ≠ 47 → s.clock.resetPlan = true → exec (.slotEnd codes) s = exec (.planResetBoundary codes) s)
      ∧ (s.clock.slot ≠ 47 → s.clock.resetPlan = false →
          ∃ t : State, exec (.slotEnd codes) s = .next t
            ∧ t.clock = { s.clock with slot := s.clock.slot + 1 }
            ∧ t.mode = .running ∧ t.restartPending = s.restartPending ∧ t.ports = s.ports ∧ t.rooms = s.rooms ∧ t.pins = s.pins
            ∧ t.heat = s.heat ∧ t.pending = s.pending ∧ t.draws = s.draws + 1
            ∧ t.store = { s.store with learnedChanged := t.store.learnedChanged }
            ∧ (s.store.learnedChanged = true → t.store.learnedChanged = true)
            ∧ (∀ ch, (t.sensors.get ch).lastCode = codes.get ch
                ∧ (validCode (codes.get ch) = true →
                    (t.sensors.get ch).lastValid = some (convert s.store.inForce.conversion (codes.get ch)) ∧ (t.sensors.get ch).stale = false
                      ∧ (t.sensors.get ch).invalidRun = 0 ∧ (t.sensors.get ch).validRun = min ((s.sensors.get ch).validRun + 1) 255)
                ∧ (validCode (codes.get ch) = false →
                    (t.sensors.get ch).lastValid = (s.sensors.get ch).lastValid ∧ (t.sensors.get ch).stale = (s.sensors.get ch).lastValid.isSome
                      ∧ (t.sensors.get ch).validRun = 0 ∧ (t.sensors.get ch).invalidRun = min ((s.sensors.get ch).invalidRun + 1) 255))
            ∧ (∀ ch : Fin 26,
                (let own : SlotResult := match (t.sensors.get ch).lastValid with
                    | none => .none
                    | some now => if validCode (codes.get ch) then .valid now else .stale;
                  (∀ l : LoopNo, ch = returnChannel l →
                      (t.sensors.get ch).result = if (s.loopSettings l).returnSensorPresent then own else .absent)
                    ∧ (24 ≤ ch.val → t.present (sensorKey ch) = false → (t.sensors.get ch).result = own)
                    ∧ (24 ≤ ch.val → t.present (sensorKey ch) = true →
                        (t.sensors.get ch).result = match s.source.freshTemp with
                          | some posted => .substituted posted
                          | none => own)))
            ∧ t.source.age = min (s.source.age + 1) 255 ∧ t.source.view = t.nextView ∧ t.source.limits = t.nextLimits ∧ t.settlesFrom s
            ∧ t.source.limits.flowLow ≤ t.flowRequest ∧ t.flowRequest ≤ t.source.limits.flowHigh)

/-- R95 to R98: what a slot end within a frame measures. A slot of a channel that is energised and has no dead slots remaining adds its loop's weight times
its spread to the heat count where both readings are there, and, where its run is ORDINARY or PINNED, the view is a heating one and no settle is on, its spread
to S and one to n of its own loop or its leader's; dead slots remaining are counted down, and a start puts them at D. A loop free of holds before and after
the slot end's changes gives its sample, a loop under a hold both times gives none; for a loop whose hold begins or ends there the outcome is free
(log 9). -/
def Obligations.SlotEndTakesSamplesAndHeat : Prop :=
  ∀ (codes : Codes) (s : State), s.mode = .running → s.clock.slot ≠ 47 → s.clock.resetPlan = false →
    ∃ t : State, exec (.slotEnd codes) s = .next t
      ∧ (let spread (l : LoopNo) : Option Nat :=
            match (t.sensors.get (flowChannel (manifoldOf l))).result, (t.sensors.get (returnChannel l)).result with
            | .valid flow, .valid ret => some (max 0 (min 300 (flow - ret))).toNat
            | .substituted flow, .valid ret => some (max 0 (min 300 (flow - ret))).toNat
            | _, _ => none;
          let counted (l : LoopNo) : Bool := s.energised l && (s.balance.get l).deadSlots == 0 && (spread l).isSome;
          let sample (l : LoopNo) : Bool :=
            counted l && ((s.channels.get l).state == .boost || (s.channels.get l).state == .hold)
              && (s.run (s.planLoop l)).covers s.clock.slot.val
              && ((s.run (s.planLoop l)).kind == .ordinary || (s.run (s.planLoop l)).kind == .pinned)
              && (s.source.view == .heat || s.source.view == .fallback) && !s.source.settling;
          (∀ l, (t.balance.get l).heat = (s.balance.get l).heat + (if counted l then s.weight l * (spread l).getD 0 else 0))
            ∧ (∀ l, (t.balance.get l).deadSlots = (if s.energised l then (s.balance.get l).deadSlots - 1 else (s.balance.get l).deadSlots)
                ∨ (t.energised l = true ∧ (t.channels.get l).boostElapsed = 0 ∧ (t.balance.get l).deadSlots = (t.balance.get l).deadTime))
            ∧ ∃ taken : LoopNo → Bool,
                (∀ l, taken l = true → sample l = true ∧ (s.hold l = .none ∨ t.hold l = .none))
                  ∧ (∀ l, sample l = true → s.hold l = .none → t.hold l = .none → taken l = true)
                  ∧ ∀ l, (let given := allLoops.filter fun o => taken o && s.planLoop o == l;
                      (t.balance.get l).count = (s.balance.get l).count + given.length
                        ∧ (given = [] → (t.balance.get l).sum = (s.balance.get l).sum)
                        ∧ (given ≠ [] →
                            (t.balance.get l).sum = min ((s.balance.get l).sum + (given.map fun o => (spread o).getD 0).sum) 16777215)))

/-- R148, R124: the flow thresholds at a slot end within a frame. Each condition of a manifold becomes present where its flow reads above its threshold,
ends where it reads below the threshold less the hysteresis, and stays as it is otherwise and without a reading. A FLOW_SHUTDOWN that becomes present blocks
every channel of its manifold and leaves none driven; its end takes SHUTDOWN from each of them; without a change of it SHUTDOWN stays as it is. A channel
that its end frees of the last cause is in the slot that begins where R112, R113 and R118 have it: waiting for SAFE_OPEN or in it under an OPEN hold, waiting to
RESTART its run or driven by it where that covers the slot that ends and the slot that begins (a run that a fault response had ended before covers no later
slot: R88), IDLE where neither that run nor one in the loop's own record covers the slot that begins (an OFF loop and a follower have none: R69), the channels
before being sound (`State.driveSound`, StepKeepsChannels). A condition that becomes present under a listing mode is listed, or the list is full
and OVERFLOW set. -/
def Obligations.FlowThresholdsActOnTheirManifold : Prop :=
  ∀ (codes : Codes) (s : State), s.mode = .running → s.clock.slot ≠ 47 → s.clock.resetPlan = false →
    ∃ t : State, exec (.slotEnd codes) s = .next t
      ∧ ∀ m : Manifold,
          (let flow : Option Int := match (t.sensors.get (flowChannel m)).result with
              | .valid a => some a
              | .substituted a => some a
              | _ => none;
            let warn := CondKey.manifold .flowWarn m;
            let shutdown := CondKey.manifold .flowShutdown m;
            let judged (key : CondKey) (threshold : Nat) : Prop :=
              (flow = none → t.present key = s.present key)
                ∧ (∀ a, flow = some a →
                    ((threshold : Int) < a → t.present key = true)
                      ∧ (a < (threshold : Int) - s.general.flowHysteresis → t.present key = false)
                      ∧ (a ≤ threshold → (threshold : Int) - s.general.flowHysteresis ≤ a → t.present key = s.present key))
                ∧ (s.present key = false → t.present key = true → (s.response key).mode ≠ .ignore →
                    t.listed key = true ∨ (t.faults.overflow = true ∧ 32 ≤ t.faults.entries.length));
            judged warn s.general.flowWarn ∧ judged shutdown s.general.flowShutdown
              ∧ (s.present shutdown = false → t.present shutdown = true → ∀ l, manifoldOf l = m →
                  (t.channels.get l).causes.shutdown = true ∧ (t.channels.get l).state = .blocked ∧ t.energised l = false)
              ∧ (s.present shutdown = true → t.present shutdown = false → ∀ l, manifoldOf l = m →
                  (t.channels.get l).causes.shutdown = false
                    ∧ (let c := t.channels.get l;
                        let run := t.run (t.planLoop l);
                        let driven := (c.state = .pending ∧ c.pendingFor = .restart) ∨ c.state = .boost;
                        s.driveSound → (s.channels.get l).causes = ⟨false, true, false⟩ → c.causes = ⟨false, false, false⟩ → t.hold l = s.hold l →
                          (t.effMode l = .off → (t.run l).covers t.clock.slot.val = false → c.state = .idle)
                            ∧ (t.effMode l ≠ .off → t.hold l = .opened → (c.state = .pending ∧ c.pendingFor = .safeOpen) ∨ c.state = .safeOpen)
                            ∧ (t.effMode l ≠ .off → t.hold l ≠ .opened → run.covers s.clock.slot.val = true → run.covers t.clock.slot.val = true →
                                (s.run (s.planLoop l)).endCause ≠ .fault → driven)
                            ∧ (t.effMode l ≠ .off → t.hold l ≠ .opened → run.covers t.clock.slot.val = false →
                                (t.run l).covers t.clock.slot.val = false → c.state = .idle)))
              ∧ (s.present shutdown = t.present shutdown → ∀ l, manifoldOf l = m →
                  (t.channels.get l).causes.shutdown = (s.channels.get l).causes.shutdown))

/-- R113, R118, R125: the channels at the start of the slot that a slot end within a frame begins. A RUN leader's channel that its run drives, or that
waits to RESTART it, has a run that covers the new slot: a run's end leaves neither. Where a run begins as a new start its channel is not IDLE: with
no block cause and no OPEN hold one that was IDLE, BLOCKED or in SAFE_OPEN before is in BOOST, or it waits to RESTART where what the plan starts leave
of the start budget does not cover its c (log 25); with a cause it is BLOCKED. The plan starts counted are those of runs that begin there and are in
BOOST, each with its c. A pair whose run begins there with both channels IDLE before, and whose follower is free of CLOSED and OPEN holds, comes to
one and the same state. The starts of the slot stay within the budget, and no more channels than that begin to be driven. The channels before are
sound (`State.driveSound`), as every step keeps them (StepKeepsChannels). -/
def Obligations.SlotStartFollowsThePlan : Prop :=
  ∀ (codes : Codes) (s : State), s.mode = .running → s.driveSound → s.clock.slot ≠ 47 → s.clock.resetPlan = false →
    ∃ t : State, exec (.slotEnd codes) s = .next t
      ∧ (let now := t.clock.slot.val;
          let begins (l : LoopNo) : Prop := (t.run l).covers now = true ∧ (t.run l).first = now ∧ (t.run l).continuation = false;
          (∀ l, s.runLeader l = true →
              (t.channels.get l).state = .boost ∨ (t.channels.get l).state = .hold
                ∨ ((t.channels.get l).state = .pending ∧ (t.channels.get l).pendingFor = .restart) → (t.run l).covers now = true)
            ∧ (∀ l, begins l → (t.channels.get l).state ≠ .idle)
            ∧ (∀ l, s.runLeader l = true → begins l →
                ((t.channels.get l).causes ≠ ⟨false, false, false⟩ → (t.channels.get l).state = .blocked)
                  ∧ ((t.channels.get l).causes = ⟨false, false, false⟩ → t.hold l ≠ .opened →
                      (s.channels.get l).state = .idle ∨ (s.channels.get l).state = .blocked ∨ (s.channels.get l).state = .safeOpen →
                      (t.channels.get l).state = .boost
                        ∨ ((t.channels.get l).state = .pending ∧ (t.channels.get l).pendingFor = .restart
                            ∧ s.general.startBudget < t.supply.planStarts + t.runStarts l)))
            ∧ t.supply.planStarts ≤ (allLoops.map fun l =>
                if (t.run l).covers now && (t.run l).first == now && !(t.run l).continuation && (t.channels.get l).state == .boost
                then t.runStarts l else 0).sum
            ∧ (∀ l, s.effMode l = .leader → begins l → (t.hold (partner l)).holdsOut = false → (s.channels.get l).state = .idle →
                (s.channels.get (partner l)).state = .idle →
                (t.channels.get l).state = (t.channels.get (partner l)).state ∧ t.energised l = t.energised (partner l))
            ∧ t.supply.planStarts + t.supply.extraStarts ≤ s.general.startBudget
            ∧ allLoops.countP (fun l => t.energised l && !s.energised l) ≤ s.general.startBudget)

/-- R21, R22, R27, R28, R35, R72, R74, R91, R104, R108, R109, R150: a frame end: slot 0 of the next frame, the staged settings in force, ADOPTED
raised exactly where they differ. With the samples and heat of slot 47 counted, S, n, the heat count and the relearned mark of every loop stand in its
report with the outcome of R104, tried in its order (HELD by the hold after slot 47's supervision: log 23), and are then cleared; k is what the update
of R105 gives; the heats are summed over the manifolds, the house and the rooms as listed in the frame that ends; the idle-frame counts of its RUN
leaders follow; the autosave count advances. The duty records, the flow request and the plan are those of the frame start: the requests computed, the
request stepped and the runs placed from the settings, rooms, pins, factors, holds and limits of the new frame, from the carries that stood, and with
the continuations of R74. A waiting RESET PLAN is carried out: no loop continues, the carries and the ring pointer are 0, and a channel driven after
it has been started anew. FRAME is raised. The fresh flow temperature, under the timeout just adopted (log 33), and the settle are those of slot 0.
A SOURCE_SILENT newly listed there is the last of its instant. The count of draws is log 8's. In another
slot no frame ends (log 3). -/
def Obligations.FrameEndAdoptsAndBegins : Prop :=
  ∀ (codes : Codes) (s : State), s.mode = .running →
    (s.clock.slot ≠ 47 → exec (.frameEnd codes) s = .next s)
      ∧ (s.clock.slot = 47 →
          ∃ t : State, exec (.frameEnd codes) s = .next t
            ∧ t.clock = ⟨0, s.clock.frame + 1, false⟩
            ∧ t.mode = .running ∧ t.restartPending = s.restartPending ∧ t.ports = s.ports ∧ t.pins = s.pins ∧ t.pending = s.pending
            ∧ t.draws = s.draws + 1
            ∧ t.store.staged = s.store.staged ∧ t.store.inForce = s.store.staged
            ∧ (∀ m, (t.notices.get m).mail = (s.notices.get m).mail ∧ (t.notices.get m).enabled = (s.notices.get m).enabled
                ∧ ∀ i : Nat, i = 8 → (t.notices.get m).pending.getLsbD i = ((s.notices.get m).pending.getLsbD i
                    || (s.store.staged != s.store.inForce && (s.store.staged.routes.get 8).has m)))
            ∧ t.store.autosaveCount = (if 89 ≤ s.store.autosaveCount then 0 else s.store.autosaveCount + 1)
            ∧ (∀ l, (t.balance.get l).sum = 0 ∧ (t.balance.get l).count = 0 ∧ (t.balance.get l).heat = 0 ∧ (t.balance.get l).relearned = false
                ∧ ((s.balance.get l).relearned = true → (t.balance.get l).factor = (s.balance.get l).factor)
                ∧ (let u := s.slotEndWork codes;
                    let b := u.balance.get l;
                    (t.balance.get l).report = ⟨s.clock.frame,
                      if s.runLeader l = false then .notLeader else if b.relearned then .relearned else if u.hold l ≠ .none then .held
                        else if b.count < 3 then .tooFew else .updated,
                      b.sum, b.count, if b.count = 0 then 0 else max 5 (b.sum / b.count), b.heat, (s.balance.get l).factor,
                      (t.balance.get l).factor⟩))
            ∧ t.heat.frame = s.clock.frame ∧ t.heat.house = t.heat.manifoldA + t.heat.manifoldB
            ∧ (let heatOf (loops : List LoopNo) : Nat := (loops.map fun l => (t.balance.get l).report.heat).sum;
                t.heat.manifoldA = heatOf (allLoops.filter fun l => decide (l.val < 12))
                  ∧ t.heat.manifoldB = heatOf (allLoops.filter fun l => decide (12 ≤ l.val))
                  ∧ ∀ r, (t.rooms.get r).heat = heatOf (s.store.inForce.rooms.get r).loops)
            ∧ (∀ l, (t.plans.get l).idleFrames =
                if effMode s.store.staged.loops l ≠ s.effMode l then 0
                else if s.runLeader l = false then (s.plans.get l).idleFrames
                else if (s.channels.get l).inFrame then 0 else min ((s.plans.get l).idleFrames + 1) 65535)
            ∧ (∀ l, (t.balance.get l).factor = ((s.slotEndWork codes).closeBalance.balance.get l).factor)
            ∧ (∃ (v : State) (cont : Tab 24 Bool), v.sameInputs t ∧ v.flowRequest = s.flowRequest
                ∧ (∀ l, (v.duty.get l).carry =
                    if s.clock.resetPlan = true ∨ effMode s.store.staged.loops l ≠ s.effMode l then 0 else (s.duty.get l).carry)
                ∧ v.planner.ring = (if s.clock.resetPlan = true then 0 else s.planner.ring)
                ∧ (∀ l, cont.get l = true ↔ s.clock.resetPlan = false ∧ v.runLeader l = true ∧ v.effMode l = s.effMode l ∧ (s.run l).covers 47 = true
                    ∧ (v.hold l).holdsOut = false ∧ ((s.slotEndWork codes).channels.get l).byRun = true
                    ∧ (v.drivesFollower l = true → ((s.slotEndWork codes).channels.get (partner l)).byRun = true))
                ∧ t.flowRequest = v.computeDuty.stepFlow.flowRequest
                ∧ t.hasPlanOf (v.computeDuty.stepFlow.clearFrameMarks.place cont false))
            ∧ (s.clock.resetPlan = true → t.startsAfresh s) ∧ t.pendingAtRoute .frame
            ∧ (∀ (before after : List FaultEntry) (e : FaultEntry), t.faults.entries = before ++ e :: after → e.key = .part .sourceSilent →
                s.listed e.key = false → after = [] ∧ e = ⟨.part .sourceSilent, s.clock.frame, 47, s.clock.frame, 1⟩)
            ∧ (∀ r, (t.rooms.get r).posted = (s.rooms.get r).posted
                ∧ (t.rooms.get r).age = if (s.store.staged.rooms.get r).loops = [] then (s.rooms.get r).age else min ((s.rooms.get r).age + 1) 255)
            ∧ t.source.view = t.nextView ∧ t.source.limits = t.nextLimits ∧ t.settlesFrom s
            ∧ t.source.limits.flowLow ≤ t.flowRequest ∧ t.flowRequest ≤ t.source.limits.flowHigh)

/-- R19, R22, R63, R91, R111, R127, R135, R136: a plan reset in slot 0..46: slot 0 of a new frame with nothing adopted and nothing reported, no run a
continuation, S, n, the heat count and the relearned mark of every loop 0, the rooms and pins as they were. Every channel is de-energised, so one
driven after it has been started anew; the carries and the ring pointer are 0, and the new frame is placed from them and from the settings, rooms,
pins, factors, holds and limits as they stand; the flow request is clamped and not stepped; the idle-frame counts stay as they were; FRAME is raised;
the posted flow temperature is fresh in slot 0 where the age is below the source timeout (log 33), and the settle runs on across the boundary. The
count of draws is log 8's. With no RESET PLAN waiting, or in slot 47, it is not carried out by this boundary (log 3). -/
def Obligations.PlanResetBeginsAFrame : Prop :=
  ∀ (codes : Codes) (s : State), s.mode = .running →
    (s.clock.slot = 47 ∨ s.clock.resetPlan = false → exec (.planResetBoundary codes) s = .next s)
      ∧ (s.clock.slot ≠ 47 → s.clock.resetPlan = true →
          ∃ t : State, exec (.planResetBoundary codes) s = .next t
            ∧ t.clock = ⟨0, s.clock.frame + 1, false⟩
            ∧ t.mode = .running ∧ t.restartPending = s.restartPending ∧ t.ports = s.ports ∧ t.rooms = s.rooms ∧ t.pins = s.pins
            ∧ t.heat = s.heat ∧ t.pending = s.pending ∧ t.draws = s.draws + 1
            ∧ t.store = { s.store with learnedChanged := t.store.learnedChanged }
            ∧ (∀ l, (t.balance.get l).sum = 0 ∧ (t.balance.get l).count = 0 ∧ (t.balance.get l).heat = 0 ∧ (t.balance.get l).relearned = false
                ∧ (t.balance.get l).factor = (s.balance.get l).factor ∧ (t.balance.get l).report = (s.balance.get l).report
                ∧ (t.run l).continuation = false)
            ∧ (∃ v : State, v.sameInputs t ∧ v.flowRequest = s.flowRequest ∧ (∀ l, (v.duty.get l).carry = 0) ∧ v.planner.ring = 0
                ∧ t.hasPlanOf (v.computeDuty.reclampFlow.clearFrameMarks.place (.fill 24 false) false))
            ∧ t.startsAfresh s ∧ t.flowRequest = clampNat t.source.limits.flowLow t.source.limits.flowHigh s.flowRequest
            ∧ (∀ l, (t.plans.get l).idleFrames = (s.plans.get l).idleFrames) ∧ t.pendingAtRoute .frame
            ∧ t.source.view = t.nextView ∧ t.source.limits = t.nextLimits ∧ t.settlesFrom s
            ∧ t.source.limits.flowLow ≤ t.flowRequest ∧ t.flowRequest ≤ t.source.limits.flowHigh)

/-! ### The planner and the arithmetic (03 to 06) -/

/-- R70, R71, R73, R77, R80: a placement leaves every slot of the frame either within the ceiling in force or without a run, and, with c counted for each
run that is no continuation, within the start budget. R61: the carry it leaves a RUN leader is what its run did not give: q' less the length of an ordinary
run, the entering carry beside a pinned one, q' beside any other, each at most 48 less the run's length; a loop that is none has no carry. -/
def Obligations.PlacementKeepsCeilingAndBudget : Prop :=
  ∀ (s : State) (cont : Tab 24 Bool) (frameZero : Bool) (slot : Nat), slot < 48 →
    (s.place cont frameZero).withinCeiling s.source.limits.ceiling slot
      ∧ (s.place cont frameZero).planStartsAt slot ≤ s.general.startBudget
      ∧ ∀ l, (let run := (s.place cont frameZero).run l;
          ((s.place cont frameZero).duty.get l).carry =
            if s.runLeader l = false then 0
            else min (48 - run.length) (if run.kind = .pinned then (s.duty.get l).carry
              else if run.kind = .ordinary then (s.duty.get l).clipped - run.length else (s.duty.get l).clipped))

/-- R70, R84: a trim from slot `s0` leaves every slot from there on either within the ceiling or without a run; no run covers a slot that it did not cover
before, and the slots before `s0` are not touched. -/
def Obligations.TrimKeepsCeiling : Prop :=
  ∀ (s : State) (s0 ceiling slot : Nat), slot < 48 →
    (let t := (s.replan s0).trim s0 ceiling;
      (s0 ≤ slot → t.withinCeiling ceiling slot)
        ∧ (∀ l, (t.run l).covers slot = true → (s.run l).covers slot = true)
        ∧ (slot < s0 → t.slotPlan slot = s.slotPlan slot ∧ ∀ l, (t.run l).covers slot = (s.run l).covers slot))

/-- R42: the conversion of a valid code: the point below it and the truncated step; a code on a point gives that point, and where the points lie in range the
clamp changes nothing. -/
def Obligations.ConversionInterpolates : Prop :=
  ∀ (table : Tab 17 Int) (code : BitVec 12) (j : Fin 16), validCode code = true → code.toNat / 256 = j.val →
    (let low := table.get j.castSucc;
      let high := table.get j.succ;
      let offset : Int := ((code.toNat - 256 * j.val : Nat) : Int);
      let result := low + Int.tdiv ((high - low) * offset) 256;
      convert table code = max (-300) (min 950 result)
        ∧ ((∀ i, -300 ≤ table.get i ∧ table.get i ≤ 950) →
            convert table code = result ∧ min low high ≤ result ∧ result ≤ max low high ∧ (code.toNat = 256 * j.val → result = low)))

/-- R56 to R59: at a frame start a RUN leader's demand in use is its room's: the posted demand of a FRESH room, the fallback of a STALE one or one never
posted, 0 for a loop in no room. Its request is that demand in slots, scaled by k and rounded half up, in 0..192; q' is the request and the carry, each and
together at most 48, the carry cleared by a demand of 0. A loop that is no RUN leader has none of these. -/
def Obligations.RequestRoundsHalfUp : Prop :=
  ∀ (s : State) (l : LoopNo),
    (let d := s.computeDuty.duty.get l;
      let lists (r : Fin 16) : List LoopNo := (s.store.inForce.rooms.get r).loops;
      (s.runLeader l = false → d = ⟨0, .none, 0, 0, 0⟩)
        ∧ (s.runLeader l = true →
            ((∀ r, l ∉ lists r) → d.demand = 0 ∧ d.origin = .none)
              ∧ (∀ r, l ∈ lists r → (∀ o, l ∈ lists o → o = r) →
                  ((s.rooms.get r).state = .fresh → d.demand = (s.rooms.get r).posted ∧ d.origin = .posted)
                    ∧ ((s.rooms.get r).state ≠ .fresh → d.demand = (s.store.inForce.rooms.get r).fallback ∧ d.origin = .fallback))
              ∧ d.rho = (d.demand * 48 * (s.balance.get l).factor + 12800) / 25600
              ∧ 2 * 25600 * d.rho ≤ 2 * (d.demand * 48 * (s.balance.get l).factor) + 25600
              ∧ 2 * (d.demand * 48 * (s.balance.get l).factor) < 2 * 25600 * d.rho + 25600
              ∧ (d.demand ≤ 100 → (s.balance.get l).factor ≤ 1024 → d.rho ≤ 192)
              ∧ d.carry = (if d.demand = 0 then 0 else (s.duty.get l).carry) ∧ d.clipped = min (min d.rho 48 + d.carry) 48))

/-- R65, R66, R67: the flow request at a frame start. In a heating view it rises by the step up where some eligible loop's request exceeds the frame, falls by
the step down where every eligible one stays below 48 less the headroom or there is none, and holds otherwise; in the other views it holds. The result is
clamped once to the limits in force, and FLOW_REQUEST is raised exactly where the value changes. -/
def Obligations.FlowRequestSteps : Prop :=
  ∀ s : State,
    (let t := s.stepFlow;
      let heating := s.source.view = .heat ∨ s.source.view = .fallback;
      let eligible (l : LoopNo) : Prop := s.runLeader l = true ∧ 0 < (s.duty.get l).demand ∧ s.hold l = .none;
      let above := ∃ l, eligible l ∧ 48 < (s.duty.get l).rho;
      let below := ∀ l, eligible l → (s.duty.get l).rho < 48 - s.general.headroom;
      let clamped (x : Nat) : Nat := clampNat s.source.limits.flowLow s.source.limits.flowHigh x;
      t = { s with flowRequest := t.flowRequest, notices := t.notices }
        ∧ (heating → above → t.flowRequest = clamped (s.flowRequest + s.general.flowStepUp))
        ∧ (heating → ¬ above → below → t.flowRequest = clamped (s.flowRequest - s.general.flowStepDown))
        ∧ (heating → ¬ above → ¬ below → t.flowRequest = clamped s.flowRequest)
        ∧ (¬ heating → t.flowRequest = clamped s.flowRequest)
        ∧ (t.flowRequest = s.flowRequest → t.notices = s.notices)
        ∧ (t.flowRequest ≠ s.flowRequest → t.notices = (s.raise .flowRequest).notices))

/-- R104: the outcome of a loop at a frame end, in the order of its rows. R105, with R106's table: the new factor of an UPDATED loop, in the five stages of
the rule; it lies in 64..1024 and moves by 32 at most, a change sets the learned-changed flag, and the LIMIT flags say whether stage 5 clamped. A loop that is
not UPDATED keeps its factor and its flags. -/
def Obligations.FactorUpdateTakesFiveStages : Prop :=
  ∀ (s : State) (l : LoopNo),
    (let b := s.balance.get l;
      let c := s.closeBalance.balance.get l;
      (s.balanceOutcome l =
          if s.effMode l ≠ .single ∧ s.effMode l ≠ .leader then .notLeader else if b.relearned then .relearned
          else if s.hold l ≠ .none then .held else if b.count < 3 then .tooFew else .updated)
        ∧ c.report.outcome = s.balanceOutcome l
        ∧ (s.balanceOutcome l ≠ .updated → c.factor = b.factor ∧ c.limitHigh = b.limitHigh ∧ c.limitLow = b.limitLow)
        ∧ (s.balanceOutcome l = .updated →
            (let a : Nat := max 5 (b.sum / b.count);
              let r : Nat := b.factor * (s.loopSettings l).designSpread / a;
              let step : Int := max (-32) (min 32 (Int.tdiv (((r : Int) - b.factor) * s.general.balanceGain) 8));
              (c.factor : Int) = max 64 (min 1024 (b.factor + step))
                ∧ (b.factor ≤ 1024 → (s.loopSettings l).designSpread ≤ 100 → r ≤ 20480)
                ∧ c.limitHigh = decide (1024 < b.factor + step) ∧ c.limitLow = decide (b.factor + step < 64)
                ∧ (64 ≤ b.factor → b.factor ≤ 1024 → b.factor ≤ c.factor + 32 ∧ c.factor ≤ b.factor + 32)))
        ∧ (c.factor ≠ b.factor → s.closeBalance.store.learnedChanged = true))

end Statements
end

