-- ==== Sys2Proof/Laws/State.lean ====
section
/-! SUPPORT. One lemma for each field of State under each update of the model that names the fields it changes: every other field is as it was.
All hold by `rfl`; later proofs cite them instead of unfolding a record update. -/

namespace Sys2Proof.Machine

open Sys2Proof

/-! ### `State.setRecord` -/

@[simp] theorem State.setRecord_mode (s : State) (key : CondKey) (r : CondRecord) : (s.setRecord key r).mode = s.mode := rfl
@[simp] theorem State.setRecord_restartPending (s : State) (key : CondKey) (r : CondRecord) : (s.setRecord key r).restartPending = s.restartPending := rfl
@[simp] theorem State.setRecord_ports (s : State) (key : CondKey) (r : CondRecord) : (s.setRecord key r).ports = s.ports := rfl
@[simp] theorem State.setRecord_notices (s : State) (key : CondKey) (r : CondRecord) : (s.setRecord key r).notices = s.notices := rfl
@[simp] theorem State.setRecord_store (s : State) (key : CondKey) (r : CondRecord) : (s.setRecord key r).store = s.store := rfl
@[simp] theorem State.setRecord_clock (s : State) (key : CondKey) (r : CondRecord) : (s.setRecord key r).clock = s.clock := rfl
@[simp] theorem State.setRecord_sensors (s : State) (key : CondKey) (r : CondRecord) : (s.setRecord key r).sensors = s.sensors := rfl
@[simp] theorem State.setRecord_rooms (s : State) (key : CondKey) (r : CondRecord) : (s.setRecord key r).rooms = s.rooms := rfl
@[simp] theorem State.setRecord_pins (s : State) (key : CondKey) (r : CondRecord) : (s.setRecord key r).pins = s.pins := rfl
@[simp] theorem State.setRecord_duty (s : State) (key : CondKey) (r : CondRecord) : (s.setRecord key r).duty = s.duty := rfl
@[simp] theorem State.setRecord_plans (s : State) (key : CondKey) (r : CondRecord) : (s.setRecord key r).plans = s.plans := rfl
@[simp] theorem State.setRecord_slots (s : State) (key : CondKey) (r : CondRecord) : (s.setRecord key r).slots = s.slots := rfl
@[simp] theorem State.setRecord_planner (s : State) (key : CondKey) (r : CondRecord) : (s.setRecord key r).planner = s.planner := rfl
@[simp] theorem State.setRecord_balance (s : State) (key : CondKey) (r : CondRecord) : (s.setRecord key r).balance = s.balance := rfl
@[simp] theorem State.setRecord_channels (s : State) (key : CondKey) (r : CondRecord) : (s.setRecord key r).channels = s.channels := rfl
@[simp] theorem State.setRecord_supply (s : State) (key : CondKey) (r : CondRecord) : (s.setRecord key r).supply = s.supply := rfl
@[simp] theorem State.setRecord_conds (s : State) (key : CondKey) (r : CondRecord) : (s.setRecord key r).conds = s.conds.set key r := rfl
@[simp] theorem State.setRecord_faults (s : State) (key : CondKey) (r : CondRecord) : (s.setRecord key r).faults = s.faults := rfl
@[simp] theorem State.setRecord_watch (s : State) (key : CondKey) (r : CondRecord) : (s.setRecord key r).watch = s.watch := rfl
@[simp] theorem State.setRecord_source (s : State) (key : CondKey) (r : CondRecord) : (s.setRecord key r).source = s.source := rfl
@[simp] theorem State.setRecord_flowRequest (s : State) (key : CondKey) (r : CondRecord) : (s.setRecord key r).flowRequest = s.flowRequest := rfl
@[simp] theorem State.setRecord_heat (s : State) (key : CondKey) (r : CondRecord) : (s.setRecord key r).heat = s.heat := rfl
@[simp] theorem State.setRecord_draws (s : State) (key : CondKey) (r : CondRecord) : (s.setRecord key r).draws = s.draws := rfl
@[simp] theorem State.setRecord_pending (s : State) (key : CondKey) (r : CondRecord) : (s.setRecord key r).pending = s.pending := rfl

/-! ### `State.onDuty` -/

@[simp] theorem State.onDuty_mode (s : State) (l : LoopNo) (f : Duty → Duty) : (s.onDuty l f).mode = s.mode := rfl
@[simp] theorem State.onDuty_restartPending (s : State) (l : LoopNo) (f : Duty → Duty) : (s.onDuty l f).restartPending = s.restartPending := rfl
@[simp] theorem State.onDuty_ports (s : State) (l : LoopNo) (f : Duty → Duty) : (s.onDuty l f).ports = s.ports := rfl
@[simp] theorem State.onDuty_notices (s : State) (l : LoopNo) (f : Duty → Duty) : (s.onDuty l f).notices = s.notices := rfl
@[simp] theorem State.onDuty_store (s : State) (l : LoopNo) (f : Duty → Duty) : (s.onDuty l f).store = s.store := rfl
@[simp] theorem State.onDuty_clock (s : State) (l : LoopNo) (f : Duty → Duty) : (s.onDuty l f).clock = s.clock := rfl
@[simp] theorem State.onDuty_sensors (s : State) (l : LoopNo) (f : Duty → Duty) : (s.onDuty l f).sensors = s.sensors := rfl
@[simp] theorem State.onDuty_rooms (s : State) (l : LoopNo) (f : Duty → Duty) : (s.onDuty l f).rooms = s.rooms := rfl
@[simp] theorem State.onDuty_pins (s : State) (l : LoopNo) (f : Duty → Duty) : (s.onDuty l f).pins = s.pins := rfl
@[simp] theorem State.onDuty_duty (s : State) (l : LoopNo) (f : Duty → Duty) : (s.onDuty l f).duty = s.duty.modify l f := rfl
@[simp] theorem State.onDuty_plans (s : State) (l : LoopNo) (f : Duty → Duty) : (s.onDuty l f).plans = s.plans := rfl
@[simp] theorem State.onDuty_slots (s : State) (l : LoopNo) (f : Duty → Duty) : (s.onDuty l f).slots = s.slots := rfl
@[simp] theorem State.onDuty_planner (s : State) (l : LoopNo) (f : Duty → Duty) : (s.onDuty l f).planner = s.planner := rfl
@[simp] theorem State.onDuty_balance (s : State) (l : LoopNo) (f : Duty → Duty) : (s.onDuty l f).balance = s.balance := rfl
@[simp] theorem State.onDuty_channels (s : State) (l : LoopNo) (f : Duty → Duty) : (s.onDuty l f).channels = s.channels := rfl
@[simp] theorem State.onDuty_supply (s : State) (l : LoopNo) (f : Duty → Duty) : (s.onDuty l f).supply = s.supply := rfl
@[simp] theorem State.onDuty_conds (s : State) (l : LoopNo) (f : Duty → Duty) : (s.onDuty l f).conds = s.conds := rfl
@[simp] theorem State.onDuty_faults (s : State) (l : LoopNo) (f : Duty → Duty) : (s.onDuty l f).faults = s.faults := rfl
@[simp] theorem State.onDuty_watch (s : State) (l : LoopNo) (f : Duty → Duty) : (s.onDuty l f).watch = s.watch := rfl
@[simp] theorem State.onDuty_source (s : State) (l : LoopNo) (f : Duty → Duty) : (s.onDuty l f).source = s.source := rfl
@[simp] theorem State.onDuty_flowRequest (s : State) (l : LoopNo) (f : Duty → Duty) : (s.onDuty l f).flowRequest = s.flowRequest := rfl
@[simp] theorem State.onDuty_heat (s : State) (l : LoopNo) (f : Duty → Duty) : (s.onDuty l f).heat = s.heat := rfl
@[simp] theorem State.onDuty_draws (s : State) (l : LoopNo) (f : Duty → Duty) : (s.onDuty l f).draws = s.draws := rfl
@[simp] theorem State.onDuty_pending (s : State) (l : LoopNo) (f : Duty → Duty) : (s.onDuty l f).pending = s.pending := rfl

/-! ### `State.onPlan` -/

@[simp] theorem State.onPlan_mode (s : State) (l : LoopNo) (f : LoopPlan → LoopPlan) : (s.onPlan l f).mode = s.mode := rfl
@[simp] theorem State.onPlan_restartPending (s : State) (l : LoopNo) (f : LoopPlan → LoopPlan) : (s.onPlan l f).restartPending = s.restartPending := rfl
@[simp] theorem State.onPlan_ports (s : State) (l : LoopNo) (f : LoopPlan → LoopPlan) : (s.onPlan l f).ports = s.ports := rfl
@[simp] theorem State.onPlan_notices (s : State) (l : LoopNo) (f : LoopPlan → LoopPlan) : (s.onPlan l f).notices = s.notices := rfl
@[simp] theorem State.onPlan_store (s : State) (l : LoopNo) (f : LoopPlan → LoopPlan) : (s.onPlan l f).store = s.store := rfl
@[simp] theorem State.onPlan_clock (s : State) (l : LoopNo) (f : LoopPlan → LoopPlan) : (s.onPlan l f).clock = s.clock := rfl
@[simp] theorem State.onPlan_sensors (s : State) (l : LoopNo) (f : LoopPlan → LoopPlan) : (s.onPlan l f).sensors = s.sensors := rfl
@[simp] theorem State.onPlan_rooms (s : State) (l : LoopNo) (f : LoopPlan → LoopPlan) : (s.onPlan l f).rooms = s.rooms := rfl
@[simp] theorem State.onPlan_pins (s : State) (l : LoopNo) (f : LoopPlan → LoopPlan) : (s.onPlan l f).pins = s.pins := rfl
@[simp] theorem State.onPlan_duty (s : State) (l : LoopNo) (f : LoopPlan → LoopPlan) : (s.onPlan l f).duty = s.duty := rfl
@[simp] theorem State.onPlan_plans (s : State) (l : LoopNo) (f : LoopPlan → LoopPlan) : (s.onPlan l f).plans = s.plans.modify l f := rfl
@[simp] theorem State.onPlan_slots (s : State) (l : LoopNo) (f : LoopPlan → LoopPlan) : (s.onPlan l f).slots = s.slots := rfl
@[simp] theorem State.onPlan_planner (s : State) (l : LoopNo) (f : LoopPlan → LoopPlan) : (s.onPlan l f).planner = s.planner := rfl
@[simp] theorem State.onPlan_balance (s : State) (l : LoopNo) (f : LoopPlan → LoopPlan) : (s.onPlan l f).balance = s.balance := rfl
@[simp] theorem State.onPlan_channels (s : State) (l : LoopNo) (f : LoopPlan → LoopPlan) : (s.onPlan l f).channels = s.channels := rfl
@[simp] theorem State.onPlan_supply (s : State) (l : LoopNo) (f : LoopPlan → LoopPlan) : (s.onPlan l f).supply = s.supply := rfl
@[simp] theorem State.onPlan_conds (s : State) (l : LoopNo) (f : LoopPlan → LoopPlan) : (s.onPlan l f).conds = s.conds := rfl
@[simp] theorem State.onPlan_faults (s : State) (l : LoopNo) (f : LoopPlan → LoopPlan) : (s.onPlan l f).faults = s.faults := rfl
@[simp] theorem State.onPlan_watch (s : State) (l : LoopNo) (f : LoopPlan → LoopPlan) : (s.onPlan l f).watch = s.watch := rfl
@[simp] theorem State.onPlan_source (s : State) (l : LoopNo) (f : LoopPlan → LoopPlan) : (s.onPlan l f).source = s.source := rfl
@[simp] theorem State.onPlan_flowRequest (s : State) (l : LoopNo) (f : LoopPlan → LoopPlan) : (s.onPlan l f).flowRequest = s.flowRequest := rfl
@[simp] theorem State.onPlan_heat (s : State) (l : LoopNo) (f : LoopPlan → LoopPlan) : (s.onPlan l f).heat = s.heat := rfl
@[simp] theorem State.onPlan_draws (s : State) (l : LoopNo) (f : LoopPlan → LoopPlan) : (s.onPlan l f).draws = s.draws := rfl
@[simp] theorem State.onPlan_pending (s : State) (l : LoopNo) (f : LoopPlan → LoopPlan) : (s.onPlan l f).pending = s.pending := rfl

/-! ### `State.onRun` -/

@[simp] theorem State.onRun_mode (s : State) (l : LoopNo) (f : Run → Run) : (s.onRun l f).mode = s.mode := rfl
@[simp] theorem State.onRun_restartPending (s : State) (l : LoopNo) (f : Run → Run) : (s.onRun l f).restartPending = s.restartPending := rfl
@[simp] theorem State.onRun_ports (s : State) (l : LoopNo) (f : Run → Run) : (s.onRun l f).ports = s.ports := rfl
@[simp] theorem State.onRun_notices (s : State) (l : LoopNo) (f : Run → Run) : (s.onRun l f).notices = s.notices := rfl
@[simp] theorem State.onRun_store (s : State) (l : LoopNo) (f : Run → Run) : (s.onRun l f).store = s.store := rfl
@[simp] theorem State.onRun_clock (s : State) (l : LoopNo) (f : Run → Run) : (s.onRun l f).clock = s.clock := rfl
@[simp] theorem State.onRun_sensors (s : State) (l : LoopNo) (f : Run → Run) : (s.onRun l f).sensors = s.sensors := rfl
@[simp] theorem State.onRun_rooms (s : State) (l : LoopNo) (f : Run → Run) : (s.onRun l f).rooms = s.rooms := rfl
@[simp] theorem State.onRun_pins (s : State) (l : LoopNo) (f : Run → Run) : (s.onRun l f).pins = s.pins := rfl
@[simp] theorem State.onRun_duty (s : State) (l : LoopNo) (f : Run → Run) : (s.onRun l f).duty = s.duty := rfl
@[simp] theorem State.onRun_plans (s : State) (l : LoopNo) (f : Run → Run) : (s.onRun l f).plans = s.plans.modify l fun p => { p with run := f p.run } := rfl
@[simp] theorem State.onRun_slots (s : State) (l : LoopNo) (f : Run → Run) : (s.onRun l f).slots = s.slots := rfl
@[simp] theorem State.onRun_planner (s : State) (l : LoopNo) (f : Run → Run) : (s.onRun l f).planner = s.planner := rfl
@[simp] theorem State.onRun_balance (s : State) (l : LoopNo) (f : Run → Run) : (s.onRun l f).balance = s.balance := rfl
@[simp] theorem State.onRun_channels (s : State) (l : LoopNo) (f : Run → Run) : (s.onRun l f).channels = s.channels := rfl
@[simp] theorem State.onRun_supply (s : State) (l : LoopNo) (f : Run → Run) : (s.onRun l f).supply = s.supply := rfl
@[simp] theorem State.onRun_conds (s : State) (l : LoopNo) (f : Run → Run) : (s.onRun l f).conds = s.conds := rfl
@[simp] theorem State.onRun_faults (s : State) (l : LoopNo) (f : Run → Run) : (s.onRun l f).faults = s.faults := rfl
@[simp] theorem State.onRun_watch (s : State) (l : LoopNo) (f : Run → Run) : (s.onRun l f).watch = s.watch := rfl
@[simp] theorem State.onRun_source (s : State) (l : LoopNo) (f : Run → Run) : (s.onRun l f).source = s.source := rfl
@[simp] theorem State.onRun_flowRequest (s : State) (l : LoopNo) (f : Run → Run) : (s.onRun l f).flowRequest = s.flowRequest := rfl
@[simp] theorem State.onRun_heat (s : State) (l : LoopNo) (f : Run → Run) : (s.onRun l f).heat = s.heat := rfl
@[simp] theorem State.onRun_draws (s : State) (l : LoopNo) (f : Run → Run) : (s.onRun l f).draws = s.draws := rfl
@[simp] theorem State.onRun_pending (s : State) (l : LoopNo) (f : Run → Run) : (s.onRun l f).pending = s.pending := rfl

/-! ### `State.onFlags` -/

@[simp] theorem State.onFlags_mode (s : State) (l : LoopNo) (f : PlacementFlags → PlacementFlags) : (s.onFlags l f).mode = s.mode := rfl
@[simp] theorem State.onFlags_restartPending (s : State) (l : LoopNo) (f : PlacementFlags → PlacementFlags) : (s.onFlags l f).restartPending = s.restartPending := rfl
@[simp] theorem State.onFlags_ports (s : State) (l : LoopNo) (f : PlacementFlags → PlacementFlags) : (s.onFlags l f).ports = s.ports := rfl
@[simp] theorem State.onFlags_notices (s : State) (l : LoopNo) (f : PlacementFlags → PlacementFlags) : (s.onFlags l f).notices = s.notices := rfl
@[simp] theorem State.onFlags_store (s : State) (l : LoopNo) (f : PlacementFlags → PlacementFlags) : (s.onFlags l f).store = s.store := rfl
@[simp] theorem State.onFlags_clock (s : State) (l : LoopNo) (f : PlacementFlags → PlacementFlags) : (s.onFlags l f).clock = s.clock := rfl
@[simp] theorem State.onFlags_sensors (s : State) (l : LoopNo) (f : PlacementFlags → PlacementFlags) : (s.onFlags l f).sensors = s.sensors := rfl
@[simp] theorem State.onFlags_rooms (s : State) (l : LoopNo) (f : PlacementFlags → PlacementFlags) : (s.onFlags l f).rooms = s.rooms := rfl
@[simp] theorem State.onFlags_pins (s : State) (l : LoopNo) (f : PlacementFlags → PlacementFlags) : (s.onFlags l f).pins = s.pins := rfl
@[simp] theorem State.onFlags_duty (s : State) (l : LoopNo) (f : PlacementFlags → PlacementFlags) : (s.onFlags l f).duty = s.duty := rfl
@[simp] theorem State.onFlags_plans (s : State) (l : LoopNo) (f : PlacementFlags → PlacementFlags) : (s.onFlags l f).plans = s.plans.modify l fun p => { p with flags := f p.flags } := rfl
@[simp] theorem State.onFlags_slots (s : State) (l : LoopNo) (f : PlacementFlags → PlacementFlags) : (s.onFlags l f).slots = s.slots := rfl
@[simp] theorem State.onFlags_planner (s : State) (l : LoopNo) (f : PlacementFlags → PlacementFlags) : (s.onFlags l f).planner = s.planner := rfl
@[simp] theorem State.onFlags_balance (s : State) (l : LoopNo) (f : PlacementFlags → PlacementFlags) : (s.onFlags l f).balance = s.balance := rfl
@[simp] theorem State.onFlags_channels (s : State) (l : LoopNo) (f : PlacementFlags → PlacementFlags) : (s.onFlags l f).channels = s.channels := rfl
@[simp] theorem State.onFlags_supply (s : State) (l : LoopNo) (f : PlacementFlags → PlacementFlags) : (s.onFlags l f).supply = s.supply := rfl
@[simp] theorem State.onFlags_conds (s : State) (l : LoopNo) (f : PlacementFlags → PlacementFlags) : (s.onFlags l f).conds = s.conds := rfl
@[simp] theorem State.onFlags_faults (s : State) (l : LoopNo) (f : PlacementFlags → PlacementFlags) : (s.onFlags l f).faults = s.faults := rfl
@[simp] theorem State.onFlags_watch (s : State) (l : LoopNo) (f : PlacementFlags → PlacementFlags) : (s.onFlags l f).watch = s.watch := rfl
@[simp] theorem State.onFlags_source (s : State) (l : LoopNo) (f : PlacementFlags → PlacementFlags) : (s.onFlags l f).source = s.source := rfl
@[simp] theorem State.onFlags_flowRequest (s : State) (l : LoopNo) (f : PlacementFlags → PlacementFlags) : (s.onFlags l f).flowRequest = s.flowRequest := rfl
@[simp] theorem State.onFlags_heat (s : State) (l : LoopNo) (f : PlacementFlags → PlacementFlags) : (s.onFlags l f).heat = s.heat := rfl
@[simp] theorem State.onFlags_draws (s : State) (l : LoopNo) (f : PlacementFlags → PlacementFlags) : (s.onFlags l f).draws = s.draws := rfl
@[simp] theorem State.onFlags_pending (s : State) (l : LoopNo) (f : PlacementFlags → PlacementFlags) : (s.onFlags l f).pending = s.pending := rfl

/-! ### `State.onBalance` -/

@[simp] theorem State.onBalance_mode (s : State) (l : LoopNo) (f : Balance → Balance) : (s.onBalance l f).mode = s.mode := rfl
@[simp] theorem State.onBalance_restartPending (s : State) (l : LoopNo) (f : Balance → Balance) : (s.onBalance l f).restartPending = s.restartPending := rfl
@[simp] theorem State.onBalance_ports (s : State) (l : LoopNo) (f : Balance → Balance) : (s.onBalance l f).ports = s.ports := rfl
@[simp] theorem State.onBalance_notices (s : State) (l : LoopNo) (f : Balance → Balance) : (s.onBalance l f).notices = s.notices := rfl
@[simp] theorem State.onBalance_store (s : State) (l : LoopNo) (f : Balance → Balance) : (s.onBalance l f).store = s.store := rfl
@[simp] theorem State.onBalance_clock (s : State) (l : LoopNo) (f : Balance → Balance) : (s.onBalance l f).clock = s.clock := rfl
@[simp] theorem State.onBalance_sensors (s : State) (l : LoopNo) (f : Balance → Balance) : (s.onBalance l f).sensors = s.sensors := rfl
@[simp] theorem State.onBalance_rooms (s : State) (l : LoopNo) (f : Balance → Balance) : (s.onBalance l f).rooms = s.rooms := rfl
@[simp] theorem State.onBalance_pins (s : State) (l : LoopNo) (f : Balance → Balance) : (s.onBalance l f).pins = s.pins := rfl
@[simp] theorem State.onBalance_duty (s : State) (l : LoopNo) (f : Balance → Balance) : (s.onBalance l f).duty = s.duty := rfl
@[simp] theorem State.onBalance_plans (s : State) (l : LoopNo) (f : Balance → Balance) : (s.onBalance l f).plans = s.plans := rfl
@[simp] theorem State.onBalance_slots (s : State) (l : LoopNo) (f : Balance → Balance) : (s.onBalance l f).slots = s.slots := rfl
@[simp] theorem State.onBalance_planner (s : State) (l : LoopNo) (f : Balance → Balance) : (s.onBalance l f).planner = s.planner := rfl
@[simp] theorem State.onBalance_balance (s : State) (l : LoopNo) (f : Balance → Balance) : (s.onBalance l f).balance = s.balance.modify l f := rfl
@[simp] theorem State.onBalance_channels (s : State) (l : LoopNo) (f : Balance → Balance) : (s.onBalance l f).channels = s.channels := rfl
@[simp] theorem State.onBalance_supply (s : State) (l : LoopNo) (f : Balance → Balance) : (s.onBalance l f).supply = s.supply := rfl
@[simp] theorem State.onBalance_conds (s : State) (l : LoopNo) (f : Balance → Balance) : (s.onBalance l f).conds = s.conds := rfl
@[simp] theorem State.onBalance_faults (s : State) (l : LoopNo) (f : Balance → Balance) : (s.onBalance l f).faults = s.faults := rfl
@[simp] theorem State.onBalance_watch (s : State) (l : LoopNo) (f : Balance → Balance) : (s.onBalance l f).watch = s.watch := rfl
@[simp] theorem State.onBalance_source (s : State) (l : LoopNo) (f : Balance → Balance) : (s.onBalance l f).source = s.source := rfl
@[simp] theorem State.onBalance_flowRequest (s : State) (l : LoopNo) (f : Balance → Balance) : (s.onBalance l f).flowRequest = s.flowRequest := rfl
@[simp] theorem State.onBalance_heat (s : State) (l : LoopNo) (f : Balance → Balance) : (s.onBalance l f).heat = s.heat := rfl
@[simp] theorem State.onBalance_draws (s : State) (l : LoopNo) (f : Balance → Balance) : (s.onBalance l f).draws = s.draws := rfl
@[simp] theorem State.onBalance_pending (s : State) (l : LoopNo) (f : Balance → Balance) : (s.onBalance l f).pending = s.pending := rfl

/-! ### `State.onChannel` -/

@[simp] theorem State.onChannel_mode (s : State) (l : LoopNo) (f : Channel → Channel) : (s.onChannel l f).mode = s.mode := rfl
@[simp] theorem State.onChannel_restartPending (s : State) (l : LoopNo) (f : Channel → Channel) : (s.onChannel l f).restartPending = s.restartPending := rfl
@[simp] theorem State.onChannel_ports (s : State) (l : LoopNo) (f : Channel → Channel) : (s.onChannel l f).ports = s.ports := rfl
@[simp] theorem State.onChannel_notices (s : State) (l : LoopNo) (f : Channel → Channel) : (s.onChannel l f).notices = s.notices := rfl
@[simp] theorem State.onChannel_store (s : State) (l : LoopNo) (f : Channel → Channel) : (s.onChannel l f).store = s.store := rfl
@[simp] theorem State.onChannel_clock (s : State) (l : LoopNo) (f : Channel → Channel) : (s.onChannel l f).clock = s.clock := rfl
@[simp] theorem State.onChannel_sensors (s : State) (l : LoopNo) (f : Channel → Channel) : (s.onChannel l f).sensors = s.sensors := rfl
@[simp] theorem State.onChannel_rooms (s : State) (l : LoopNo) (f : Channel → Channel) : (s.onChannel l f).rooms = s.rooms := rfl
@[simp] theorem State.onChannel_pins (s : State) (l : LoopNo) (f : Channel → Channel) : (s.onChannel l f).pins = s.pins := rfl
@[simp] theorem State.onChannel_duty (s : State) (l : LoopNo) (f : Channel → Channel) : (s.onChannel l f).duty = s.duty := rfl
@[simp] theorem State.onChannel_plans (s : State) (l : LoopNo) (f : Channel → Channel) : (s.onChannel l f).plans = s.plans := rfl
@[simp] theorem State.onChannel_slots (s : State) (l : LoopNo) (f : Channel → Channel) : (s.onChannel l f).slots = s.slots := rfl
@[simp] theorem State.onChannel_planner (s : State) (l : LoopNo) (f : Channel → Channel) : (s.onChannel l f).planner = s.planner := rfl
@[simp] theorem State.onChannel_balance (s : State) (l : LoopNo) (f : Channel → Channel) : (s.onChannel l f).balance = s.balance := rfl
@[simp] theorem State.onChannel_channels (s : State) (l : LoopNo) (f : Channel → Channel) : (s.onChannel l f).channels = s.channels.modify l f := rfl
@[simp] theorem State.onChannel_supply (s : State) (l : LoopNo) (f : Channel → Channel) : (s.onChannel l f).supply = s.supply := rfl
@[simp] theorem State.onChannel_conds (s : State) (l : LoopNo) (f : Channel → Channel) : (s.onChannel l f).conds = s.conds := rfl
@[simp] theorem State.onChannel_faults (s : State) (l : LoopNo) (f : Channel → Channel) : (s.onChannel l f).faults = s.faults := rfl
@[simp] theorem State.onChannel_watch (s : State) (l : LoopNo) (f : Channel → Channel) : (s.onChannel l f).watch = s.watch := rfl
@[simp] theorem State.onChannel_source (s : State) (l : LoopNo) (f : Channel → Channel) : (s.onChannel l f).source = s.source := rfl
@[simp] theorem State.onChannel_flowRequest (s : State) (l : LoopNo) (f : Channel → Channel) : (s.onChannel l f).flowRequest = s.flowRequest := rfl
@[simp] theorem State.onChannel_heat (s : State) (l : LoopNo) (f : Channel → Channel) : (s.onChannel l f).heat = s.heat := rfl
@[simp] theorem State.onChannel_draws (s : State) (l : LoopNo) (f : Channel → Channel) : (s.onChannel l f).draws = s.draws := rfl
@[simp] theorem State.onChannel_pending (s : State) (l : LoopNo) (f : Channel → Channel) : (s.onChannel l f).pending = s.pending := rfl

/-! ### `State.setChannelState` -/

@[simp] theorem State.setChannelState_mode (s : State) (l : LoopNo) (st : ChannelState) (why : PendingFor) : (s.setChannelState l st why).mode = s.mode := rfl
@[simp] theorem State.setChannelState_restartPending (s : State) (l : LoopNo) (st : ChannelState) (why : PendingFor) : (s.setChannelState l st why).restartPending = s.restartPending := rfl
@[simp] theorem State.setChannelState_ports (s : State) (l : LoopNo) (st : ChannelState) (why : PendingFor) : (s.setChannelState l st why).ports = s.ports := rfl
@[simp] theorem State.setChannelState_notices (s : State) (l : LoopNo) (st : ChannelState) (why : PendingFor) : (s.setChannelState l st why).notices = s.notices := rfl
@[simp] theorem State.setChannelState_store (s : State) (l : LoopNo) (st : ChannelState) (why : PendingFor) : (s.setChannelState l st why).store = s.store := rfl
@[simp] theorem State.setChannelState_clock (s : State) (l : LoopNo) (st : ChannelState) (why : PendingFor) : (s.setChannelState l st why).clock = s.clock := rfl
@[simp] theorem State.setChannelState_sensors (s : State) (l : LoopNo) (st : ChannelState) (why : PendingFor) : (s.setChannelState l st why).sensors = s.sensors := rfl
@[simp] theorem State.setChannelState_rooms (s : State) (l : LoopNo) (st : ChannelState) (why : PendingFor) : (s.setChannelState l st why).rooms = s.rooms := rfl
@[simp] theorem State.setChannelState_pins (s : State) (l : LoopNo) (st : ChannelState) (why : PendingFor) : (s.setChannelState l st why).pins = s.pins := rfl
@[simp] theorem State.setChannelState_duty (s : State) (l : LoopNo) (st : ChannelState) (why : PendingFor) : (s.setChannelState l st why).duty = s.duty := rfl
@[simp] theorem State.setChannelState_plans (s : State) (l : LoopNo) (st : ChannelState) (why : PendingFor) : (s.setChannelState l st why).plans = s.plans := rfl
@[simp] theorem State.setChannelState_slots (s : State) (l : LoopNo) (st : ChannelState) (why : PendingFor) : (s.setChannelState l st why).slots = s.slots := rfl
@[simp] theorem State.setChannelState_planner (s : State) (l : LoopNo) (st : ChannelState) (why : PendingFor) : (s.setChannelState l st why).planner = s.planner := rfl
@[simp] theorem State.setChannelState_balance (s : State) (l : LoopNo) (st : ChannelState) (why : PendingFor) : (s.setChannelState l st why).balance = s.balance := rfl
@[simp] theorem State.setChannelState_channels (s : State) (l : LoopNo) (st : ChannelState) (why : PendingFor) : (s.setChannelState l st why).channels = s.channels.modify l fun c => { c with state := st, pendingFor := why } := rfl
@[simp] theorem State.setChannelState_supply (s : State) (l : LoopNo) (st : ChannelState) (why : PendingFor) : (s.setChannelState l st why).supply = s.supply := rfl
@[simp] theorem State.setChannelState_conds (s : State) (l : LoopNo) (st : ChannelState) (why : PendingFor) : (s.setChannelState l st why).conds = s.conds := rfl
@[simp] theorem State.setChannelState_faults (s : State) (l : LoopNo) (st : ChannelState) (why : PendingFor) : (s.setChannelState l st why).faults = s.faults := rfl
@[simp] theorem State.setChannelState_watch (s : State) (l : LoopNo) (st : ChannelState) (why : PendingFor) : (s.setChannelState l st why).watch = s.watch := rfl
@[simp] theorem State.setChannelState_source (s : State) (l : LoopNo) (st : ChannelState) (why : PendingFor) : (s.setChannelState l st why).source = s.source := rfl
@[simp] theorem State.setChannelState_flowRequest (s : State) (l : LoopNo) (st : ChannelState) (why : PendingFor) : (s.setChannelState l st why).flowRequest = s.flowRequest := rfl
@[simp] theorem State.setChannelState_heat (s : State) (l : LoopNo) (st : ChannelState) (why : PendingFor) : (s.setChannelState l st why).heat = s.heat := rfl
@[simp] theorem State.setChannelState_draws (s : State) (l : LoopNo) (st : ChannelState) (why : PendingFor) : (s.setChannelState l st why).draws = s.draws := rfl
@[simp] theorem State.setChannelState_pending (s : State) (l : LoopNo) (st : ChannelState) (why : PendingFor) : (s.setChannelState l st why).pending = s.pending := rfl

/-! ### `State.onWatch` -/

@[simp] theorem State.onWatch_mode (s : State) (l : LoopNo) (f : Watch → Watch) : (s.onWatch l f).mode = s.mode := rfl
@[simp] theorem State.onWatch_restartPending (s : State) (l : LoopNo) (f : Watch → Watch) : (s.onWatch l f).restartPending = s.restartPending := rfl
@[simp] theorem State.onWatch_ports (s : State) (l : LoopNo) (f : Watch → Watch) : (s.onWatch l f).ports = s.ports := rfl
@[simp] theorem State.onWatch_notices (s : State) (l : LoopNo) (f : Watch → Watch) : (s.onWatch l f).notices = s.notices := rfl
@[simp] theorem State.onWatch_store (s : State) (l : LoopNo) (f : Watch → Watch) : (s.onWatch l f).store = s.store := rfl
@[simp] theorem State.onWatch_clock (s : State) (l : LoopNo) (f : Watch → Watch) : (s.onWatch l f).clock = s.clock := rfl
@[simp] theorem State.onWatch_sensors (s : State) (l : LoopNo) (f : Watch → Watch) : (s.onWatch l f).sensors = s.sensors := rfl
@[simp] theorem State.onWatch_rooms (s : State) (l : LoopNo) (f : Watch → Watch) : (s.onWatch l f).rooms = s.rooms := rfl
@[simp] theorem State.onWatch_pins (s : State) (l : LoopNo) (f : Watch → Watch) : (s.onWatch l f).pins = s.pins := rfl
@[simp] theorem State.onWatch_duty (s : State) (l : LoopNo) (f : Watch → Watch) : (s.onWatch l f).duty = s.duty := rfl
@[simp] theorem State.onWatch_plans (s : State) (l : LoopNo) (f : Watch → Watch) : (s.onWatch l f).plans = s.plans := rfl
@[simp] theorem State.onWatch_slots (s : State) (l : LoopNo) (f : Watch → Watch) : (s.onWatch l f).slots = s.slots := rfl
@[simp] theorem State.onWatch_planner (s : State) (l : LoopNo) (f : Watch → Watch) : (s.onWatch l f).planner = s.planner := rfl
@[simp] theorem State.onWatch_balance (s : State) (l : LoopNo) (f : Watch → Watch) : (s.onWatch l f).balance = s.balance := rfl
@[simp] theorem State.onWatch_channels (s : State) (l : LoopNo) (f : Watch → Watch) : (s.onWatch l f).channels = s.channels := rfl
@[simp] theorem State.onWatch_supply (s : State) (l : LoopNo) (f : Watch → Watch) : (s.onWatch l f).supply = s.supply := rfl
@[simp] theorem State.onWatch_conds (s : State) (l : LoopNo) (f : Watch → Watch) : (s.onWatch l f).conds = s.conds := rfl
@[simp] theorem State.onWatch_faults (s : State) (l : LoopNo) (f : Watch → Watch) : (s.onWatch l f).faults = s.faults := rfl
@[simp] theorem State.onWatch_watch (s : State) (l : LoopNo) (f : Watch → Watch) : (s.onWatch l f).watch = s.watch.modify l f := rfl
@[simp] theorem State.onWatch_source (s : State) (l : LoopNo) (f : Watch → Watch) : (s.onWatch l f).source = s.source := rfl
@[simp] theorem State.onWatch_flowRequest (s : State) (l : LoopNo) (f : Watch → Watch) : (s.onWatch l f).flowRequest = s.flowRequest := rfl
@[simp] theorem State.onWatch_heat (s : State) (l : LoopNo) (f : Watch → Watch) : (s.onWatch l f).heat = s.heat := rfl
@[simp] theorem State.onWatch_draws (s : State) (l : LoopNo) (f : Watch → Watch) : (s.onWatch l f).draws = s.draws := rfl
@[simp] theorem State.onWatch_pending (s : State) (l : LoopNo) (f : Watch → Watch) : (s.onWatch l f).pending = s.pending := rfl

/-! ### `State.onRoom` -/

@[simp] theorem State.onRoom_mode (s : State) (r : Fin 16) (f : Room → Room) : (s.onRoom r f).mode = s.mode := rfl
@[simp] theorem State.onRoom_restartPending (s : State) (r : Fin 16) (f : Room → Room) : (s.onRoom r f).restartPending = s.restartPending := rfl
@[simp] theorem State.onRoom_ports (s : State) (r : Fin 16) (f : Room → Room) : (s.onRoom r f).ports = s.ports := rfl
@[simp] theorem State.onRoom_notices (s : State) (r : Fin 16) (f : Room → Room) : (s.onRoom r f).notices = s.notices := rfl
@[simp] theorem State.onRoom_store (s : State) (r : Fin 16) (f : Room → Room) : (s.onRoom r f).store = s.store := rfl
@[simp] theorem State.onRoom_clock (s : State) (r : Fin 16) (f : Room → Room) : (s.onRoom r f).clock = s.clock := rfl
@[simp] theorem State.onRoom_sensors (s : State) (r : Fin 16) (f : Room → Room) : (s.onRoom r f).sensors = s.sensors := rfl
@[simp] theorem State.onRoom_rooms (s : State) (r : Fin 16) (f : Room → Room) : (s.onRoom r f).rooms = s.rooms.modify r f := rfl
@[simp] theorem State.onRoom_pins (s : State) (r : Fin 16) (f : Room → Room) : (s.onRoom r f).pins = s.pins := rfl
@[simp] theorem State.onRoom_duty (s : State) (r : Fin 16) (f : Room → Room) : (s.onRoom r f).duty = s.duty := rfl
@[simp] theorem State.onRoom_plans (s : State) (r : Fin 16) (f : Room → Room) : (s.onRoom r f).plans = s.plans := rfl
@[simp] theorem State.onRoom_slots (s : State) (r : Fin 16) (f : Room → Room) : (s.onRoom r f).slots = s.slots := rfl
@[simp] theorem State.onRoom_planner (s : State) (r : Fin 16) (f : Room → Room) : (s.onRoom r f).planner = s.planner := rfl
@[simp] theorem State.onRoom_balance (s : State) (r : Fin 16) (f : Room → Room) : (s.onRoom r f).balance = s.balance := rfl
@[simp] theorem State.onRoom_channels (s : State) (r : Fin 16) (f : Room → Room) : (s.onRoom r f).channels = s.channels := rfl
@[simp] theorem State.onRoom_supply (s : State) (r : Fin 16) (f : Room → Room) : (s.onRoom r f).supply = s.supply := rfl
@[simp] theorem State.onRoom_conds (s : State) (r : Fin 16) (f : Room → Room) : (s.onRoom r f).conds = s.conds := rfl
@[simp] theorem State.onRoom_faults (s : State) (r : Fin 16) (f : Room → Room) : (s.onRoom r f).faults = s.faults := rfl
@[simp] theorem State.onRoom_watch (s : State) (r : Fin 16) (f : Room → Room) : (s.onRoom r f).watch = s.watch := rfl
@[simp] theorem State.onRoom_source (s : State) (r : Fin 16) (f : Room → Room) : (s.onRoom r f).source = s.source := rfl
@[simp] theorem State.onRoom_flowRequest (s : State) (r : Fin 16) (f : Room → Room) : (s.onRoom r f).flowRequest = s.flowRequest := rfl
@[simp] theorem State.onRoom_heat (s : State) (r : Fin 16) (f : Room → Room) : (s.onRoom r f).heat = s.heat := rfl
@[simp] theorem State.onRoom_draws (s : State) (r : Fin 16) (f : Room → Room) : (s.onRoom r f).draws = s.draws := rfl
@[simp] theorem State.onRoom_pending (s : State) (r : Fin 16) (f : Room → Room) : (s.onRoom r f).pending = s.pending := rfl

/-! ### `State.onStore` -/

@[simp] theorem State.onStore_mode (s : State) (f : Store → Store) : (s.onStore f).mode = s.mode := rfl
@[simp] theorem State.onStore_restartPending (s : State) (f : Store → Store) : (s.onStore f).restartPending = s.restartPending := rfl
@[simp] theorem State.onStore_ports (s : State) (f : Store → Store) : (s.onStore f).ports = s.ports := rfl
@[simp] theorem State.onStore_notices (s : State) (f : Store → Store) : (s.onStore f).notices = s.notices := rfl
@[simp] theorem State.onStore_store (s : State) (f : Store → Store) : (s.onStore f).store = f s.store := rfl
@[simp] theorem State.onStore_clock (s : State) (f : Store → Store) : (s.onStore f).clock = s.clock := rfl
@[simp] theorem State.onStore_sensors (s : State) (f : Store → Store) : (s.onStore f).sensors = s.sensors := rfl
@[simp] theorem State.onStore_rooms (s : State) (f : Store → Store) : (s.onStore f).rooms = s.rooms := rfl
@[simp] theorem State.onStore_pins (s : State) (f : Store → Store) : (s.onStore f).pins = s.pins := rfl
@[simp] theorem State.onStore_duty (s : State) (f : Store → Store) : (s.onStore f).duty = s.duty := rfl
@[simp] theorem State.onStore_plans (s : State) (f : Store → Store) : (s.onStore f).plans = s.plans := rfl
@[simp] theorem State.onStore_slots (s : State) (f : Store → Store) : (s.onStore f).slots = s.slots := rfl
@[simp] theorem State.onStore_planner (s : State) (f : Store → Store) : (s.onStore f).planner = s.planner := rfl
@[simp] theorem State.onStore_balance (s : State) (f : Store → Store) : (s.onStore f).balance = s.balance := rfl
@[simp] theorem State.onStore_channels (s : State) (f : Store → Store) : (s.onStore f).channels = s.channels := rfl
@[simp] theorem State.onStore_supply (s : State) (f : Store → Store) : (s.onStore f).supply = s.supply := rfl
@[simp] theorem State.onStore_conds (s : State) (f : Store → Store) : (s.onStore f).conds = s.conds := rfl
@[simp] theorem State.onStore_faults (s : State) (f : Store → Store) : (s.onStore f).faults = s.faults := rfl
@[simp] theorem State.onStore_watch (s : State) (f : Store → Store) : (s.onStore f).watch = s.watch := rfl
@[simp] theorem State.onStore_source (s : State) (f : Store → Store) : (s.onStore f).source = s.source := rfl
@[simp] theorem State.onStore_flowRequest (s : State) (f : Store → Store) : (s.onStore f).flowRequest = s.flowRequest := rfl
@[simp] theorem State.onStore_heat (s : State) (f : Store → Store) : (s.onStore f).heat = s.heat := rfl
@[simp] theorem State.onStore_draws (s : State) (f : Store → Store) : (s.onStore f).draws = s.draws := rfl
@[simp] theorem State.onStore_pending (s : State) (f : Store → Store) : (s.onStore f).pending = s.pending := rfl

/-! ### `State.learned` -/

@[simp] theorem State.learned_mode (s : State) : (s.learned).mode = s.mode := rfl
@[simp] theorem State.learned_restartPending (s : State) : (s.learned).restartPending = s.restartPending := rfl
@[simp] theorem State.learned_ports (s : State) : (s.learned).ports = s.ports := rfl
@[simp] theorem State.learned_notices (s : State) : (s.learned).notices = s.notices := rfl
@[simp] theorem State.learned_store (s : State) : (s.learned).store = { s.store with learnedChanged := true } := rfl
@[simp] theorem State.learned_clock (s : State) : (s.learned).clock = s.clock := rfl
@[simp] theorem State.learned_sensors (s : State) : (s.learned).sensors = s.sensors := rfl
@[simp] theorem State.learned_rooms (s : State) : (s.learned).rooms = s.rooms := rfl
@[simp] theorem State.learned_pins (s : State) : (s.learned).pins = s.pins := rfl
@[simp] theorem State.learned_duty (s : State) : (s.learned).duty = s.duty := rfl
@[simp] theorem State.learned_plans (s : State) : (s.learned).plans = s.plans := rfl
@[simp] theorem State.learned_slots (s : State) : (s.learned).slots = s.slots := rfl
@[simp] theorem State.learned_planner (s : State) : (s.learned).planner = s.planner := rfl
@[simp] theorem State.learned_balance (s : State) : (s.learned).balance = s.balance := rfl
@[simp] theorem State.learned_channels (s : State) : (s.learned).channels = s.channels := rfl
@[simp] theorem State.learned_supply (s : State) : (s.learned).supply = s.supply := rfl
@[simp] theorem State.learned_conds (s : State) : (s.learned).conds = s.conds := rfl
@[simp] theorem State.learned_faults (s : State) : (s.learned).faults = s.faults := rfl
@[simp] theorem State.learned_watch (s : State) : (s.learned).watch = s.watch := rfl
@[simp] theorem State.learned_source (s : State) : (s.learned).source = s.source := rfl
@[simp] theorem State.learned_flowRequest (s : State) : (s.learned).flowRequest = s.flowRequest := rfl
@[simp] theorem State.learned_heat (s : State) : (s.learned).heat = s.heat := rfl
@[simp] theorem State.learned_draws (s : State) : (s.learned).draws = s.draws := rfl
@[simp] theorem State.learned_pending (s : State) : (s.learned).pending = s.pending := rfl

/-! ### `State.stage` -/

@[simp] theorem State.stage_mode (s : State) (f : Settings → Settings) : (s.stage f).mode = s.mode := rfl
@[simp] theorem State.stage_restartPending (s : State) (f : Settings → Settings) : (s.stage f).restartPending = s.restartPending := rfl
@[simp] theorem State.stage_ports (s : State) (f : Settings → Settings) : (s.stage f).ports = s.ports := rfl
@[simp] theorem State.stage_notices (s : State) (f : Settings → Settings) : (s.stage f).notices = s.notices := rfl
@[simp] theorem State.stage_store (s : State) (f : Settings → Settings) : (s.stage f).store = { s.store with staged := f s.store.staged } := rfl
@[simp] theorem State.stage_clock (s : State) (f : Settings → Settings) : (s.stage f).clock = s.clock := rfl
@[simp] theorem State.stage_sensors (s : State) (f : Settings → Settings) : (s.stage f).sensors = s.sensors := rfl
@[simp] theorem State.stage_rooms (s : State) (f : Settings → Settings) : (s.stage f).rooms = s.rooms := rfl
@[simp] theorem State.stage_pins (s : State) (f : Settings → Settings) : (s.stage f).pins = s.pins := rfl
@[simp] theorem State.stage_duty (s : State) (f : Settings → Settings) : (s.stage f).duty = s.duty := rfl
@[simp] theorem State.stage_plans (s : State) (f : Settings → Settings) : (s.stage f).plans = s.plans := rfl
@[simp] theorem State.stage_slots (s : State) (f : Settings → Settings) : (s.stage f).slots = s.slots := rfl
@[simp] theorem State.stage_planner (s : State) (f : Settings → Settings) : (s.stage f).planner = s.planner := rfl
@[simp] theorem State.stage_balance (s : State) (f : Settings → Settings) : (s.stage f).balance = s.balance := rfl
@[simp] theorem State.stage_channels (s : State) (f : Settings → Settings) : (s.stage f).channels = s.channels := rfl
@[simp] theorem State.stage_supply (s : State) (f : Settings → Settings) : (s.stage f).supply = s.supply := rfl
@[simp] theorem State.stage_conds (s : State) (f : Settings → Settings) : (s.stage f).conds = s.conds := rfl
@[simp] theorem State.stage_faults (s : State) (f : Settings → Settings) : (s.stage f).faults = s.faults := rfl
@[simp] theorem State.stage_watch (s : State) (f : Settings → Settings) : (s.stage f).watch = s.watch := rfl
@[simp] theorem State.stage_source (s : State) (f : Settings → Settings) : (s.stage f).source = s.source := rfl
@[simp] theorem State.stage_flowRequest (s : State) (f : Settings → Settings) : (s.stage f).flowRequest = s.flowRequest := rfl
@[simp] theorem State.stage_heat (s : State) (f : Settings → Settings) : (s.stage f).heat = s.heat := rfl
@[simp] theorem State.stage_draws (s : State) (f : Settings → Settings) : (s.stage f).draws = s.draws := rfl
@[simp] theorem State.stage_pending (s : State) (f : Settings → Settings) : (s.stage f).pending = s.pending := rfl

/-! ### `State.setPort` -/

@[simp] theorem State.setPort_mode (s : State) (m : Master) (p : Port) : (s.setPort m p).mode = s.mode := rfl
@[simp] theorem State.setPort_restartPending (s : State) (m : Master) (p : Port) : (s.setPort m p).restartPending = s.restartPending := rfl
@[simp] theorem State.setPort_ports (s : State) (m : Master) (p : Port) : (s.setPort m p).ports = s.ports.set m p := rfl
@[simp] theorem State.setPort_notices (s : State) (m : Master) (p : Port) : (s.setPort m p).notices = s.notices := rfl
@[simp] theorem State.setPort_store (s : State) (m : Master) (p : Port) : (s.setPort m p).store = s.store := rfl
@[simp] theorem State.setPort_clock (s : State) (m : Master) (p : Port) : (s.setPort m p).clock = s.clock := rfl
@[simp] theorem State.setPort_sensors (s : State) (m : Master) (p : Port) : (s.setPort m p).sensors = s.sensors := rfl
@[simp] theorem State.setPort_rooms (s : State) (m : Master) (p : Port) : (s.setPort m p).rooms = s.rooms := rfl
@[simp] theorem State.setPort_pins (s : State) (m : Master) (p : Port) : (s.setPort m p).pins = s.pins := rfl
@[simp] theorem State.setPort_duty (s : State) (m : Master) (p : Port) : (s.setPort m p).duty = s.duty := rfl
@[simp] theorem State.setPort_plans (s : State) (m : Master) (p : Port) : (s.setPort m p).plans = s.plans := rfl
@[simp] theorem State.setPort_slots (s : State) (m : Master) (p : Port) : (s.setPort m p).slots = s.slots := rfl
@[simp] theorem State.setPort_planner (s : State) (m : Master) (p : Port) : (s.setPort m p).planner = s.planner := rfl
@[simp] theorem State.setPort_balance (s : State) (m : Master) (p : Port) : (s.setPort m p).balance = s.balance := rfl
@[simp] theorem State.setPort_channels (s : State) (m : Master) (p : Port) : (s.setPort m p).channels = s.channels := rfl
@[simp] theorem State.setPort_supply (s : State) (m : Master) (p : Port) : (s.setPort m p).supply = s.supply := rfl
@[simp] theorem State.setPort_conds (s : State) (m : Master) (p : Port) : (s.setPort m p).conds = s.conds := rfl
@[simp] theorem State.setPort_faults (s : State) (m : Master) (p : Port) : (s.setPort m p).faults = s.faults := rfl
@[simp] theorem State.setPort_watch (s : State) (m : Master) (p : Port) : (s.setPort m p).watch = s.watch := rfl
@[simp] theorem State.setPort_source (s : State) (m : Master) (p : Port) : (s.setPort m p).source = s.source := rfl
@[simp] theorem State.setPort_flowRequest (s : State) (m : Master) (p : Port) : (s.setPort m p).flowRequest = s.flowRequest := rfl
@[simp] theorem State.setPort_heat (s : State) (m : Master) (p : Port) : (s.setPort m p).heat = s.heat := rfl
@[simp] theorem State.setPort_draws (s : State) (m : Master) (p : Port) : (s.setPort m p).draws = s.draws := rfl
@[simp] theorem State.setPort_pending (s : State) (m : Master) (p : Port) : (s.setPort m p).pending = s.pending := rfl

/-! ### `State.setNotices` -/

@[simp] theorem State.setNotices_mode (s : State) (m : Master) (n : Notices) : (s.setNotices m n).mode = s.mode := rfl
@[simp] theorem State.setNotices_restartPending (s : State) (m : Master) (n : Notices) : (s.setNotices m n).restartPending = s.restartPending := rfl
@[simp] theorem State.setNotices_ports (s : State) (m : Master) (n : Notices) : (s.setNotices m n).ports = s.ports := rfl
@[simp] theorem State.setNotices_notices (s : State) (m : Master) (n : Notices) : (s.setNotices m n).notices = s.notices.set m n := rfl
@[simp] theorem State.setNotices_store (s : State) (m : Master) (n : Notices) : (s.setNotices m n).store = s.store := rfl
@[simp] theorem State.setNotices_clock (s : State) (m : Master) (n : Notices) : (s.setNotices m n).clock = s.clock := rfl
@[simp] theorem State.setNotices_sensors (s : State) (m : Master) (n : Notices) : (s.setNotices m n).sensors = s.sensors := rfl
@[simp] theorem State.setNotices_rooms (s : State) (m : Master) (n : Notices) : (s.setNotices m n).rooms = s.rooms := rfl
@[simp] theorem State.setNotices_pins (s : State) (m : Master) (n : Notices) : (s.setNotices m n).pins = s.pins := rfl
@[simp] theorem State.setNotices_duty (s : State) (m : Master) (n : Notices) : (s.setNotices m n).duty = s.duty := rfl
@[simp] theorem State.setNotices_plans (s : State) (m : Master) (n : Notices) : (s.setNotices m n).plans = s.plans := rfl
@[simp] theorem State.setNotices_slots (s : State) (m : Master) (n : Notices) : (s.setNotices m n).slots = s.slots := rfl
@[simp] theorem State.setNotices_planner (s : State) (m : Master) (n : Notices) : (s.setNotices m n).planner = s.planner := rfl
@[simp] theorem State.setNotices_balance (s : State) (m : Master) (n : Notices) : (s.setNotices m n).balance = s.balance := rfl
@[simp] theorem State.setNotices_channels (s : State) (m : Master) (n : Notices) : (s.setNotices m n).channels = s.channels := rfl
@[simp] theorem State.setNotices_supply (s : State) (m : Master) (n : Notices) : (s.setNotices m n).supply = s.supply := rfl
@[simp] theorem State.setNotices_conds (s : State) (m : Master) (n : Notices) : (s.setNotices m n).conds = s.conds := rfl
@[simp] theorem State.setNotices_faults (s : State) (m : Master) (n : Notices) : (s.setNotices m n).faults = s.faults := rfl
@[simp] theorem State.setNotices_watch (s : State) (m : Master) (n : Notices) : (s.setNotices m n).watch = s.watch := rfl
@[simp] theorem State.setNotices_source (s : State) (m : Master) (n : Notices) : (s.setNotices m n).source = s.source := rfl
@[simp] theorem State.setNotices_flowRequest (s : State) (m : Master) (n : Notices) : (s.setNotices m n).flowRequest = s.flowRequest := rfl
@[simp] theorem State.setNotices_heat (s : State) (m : Master) (n : Notices) : (s.setNotices m n).heat = s.heat := rfl
@[simp] theorem State.setNotices_draws (s : State) (m : Master) (n : Notices) : (s.setNotices m n).draws = s.draws := rfl
@[simp] theorem State.setNotices_pending (s : State) (m : Master) (n : Notices) : (s.setNotices m n).pending = s.pending := rfl

/-! ### `State.raise` -/

@[simp] theorem State.raise_mode (s : State) (k : Kind) : (s.raise k).mode = s.mode := rfl
@[simp] theorem State.raise_restartPending (s : State) (k : Kind) : (s.raise k).restartPending = s.restartPending := rfl
@[simp] theorem State.raise_ports (s : State) (k : Kind) : (s.raise k).ports = s.ports := rfl
@[simp] theorem State.raise_store (s : State) (k : Kind) : (s.raise k).store = s.store := rfl
@[simp] theorem State.raise_clock (s : State) (k : Kind) : (s.raise k).clock = s.clock := rfl
@[simp] theorem State.raise_sensors (s : State) (k : Kind) : (s.raise k).sensors = s.sensors := rfl
@[simp] theorem State.raise_rooms (s : State) (k : Kind) : (s.raise k).rooms = s.rooms := rfl
@[simp] theorem State.raise_pins (s : State) (k : Kind) : (s.raise k).pins = s.pins := rfl
@[simp] theorem State.raise_duty (s : State) (k : Kind) : (s.raise k).duty = s.duty := rfl
@[simp] theorem State.raise_plans (s : State) (k : Kind) : (s.raise k).plans = s.plans := rfl
@[simp] theorem State.raise_slots (s : State) (k : Kind) : (s.raise k).slots = s.slots := rfl
@[simp] theorem State.raise_planner (s : State) (k : Kind) : (s.raise k).planner = s.planner := rfl
@[simp] theorem State.raise_balance (s : State) (k : Kind) : (s.raise k).balance = s.balance := rfl
@[simp] theorem State.raise_channels (s : State) (k : Kind) : (s.raise k).channels = s.channels := rfl
@[simp] theorem State.raise_supply (s : State) (k : Kind) : (s.raise k).supply = s.supply := rfl
@[simp] theorem State.raise_conds (s : State) (k : Kind) : (s.raise k).conds = s.conds := rfl
@[simp] theorem State.raise_faults (s : State) (k : Kind) : (s.raise k).faults = s.faults := rfl
@[simp] theorem State.raise_watch (s : State) (k : Kind) : (s.raise k).watch = s.watch := rfl
@[simp] theorem State.raise_source (s : State) (k : Kind) : (s.raise k).source = s.source := rfl
@[simp] theorem State.raise_flowRequest (s : State) (k : Kind) : (s.raise k).flowRequest = s.flowRequest := rfl
@[simp] theorem State.raise_heat (s : State) (k : Kind) : (s.raise k).heat = s.heat := rfl
@[simp] theorem State.raise_draws (s : State) (k : Kind) : (s.raise k).draws = s.draws := rfl
@[simp] theorem State.raise_pending (s : State) (k : Kind) : (s.raise k).pending = s.pending := rfl

/-! ### `State.withPending` -/

@[simp] theorem State.withPending_mode (s : State) (queue : List Instr) : (s.withPending queue).mode = s.mode := rfl
@[simp] theorem State.withPending_restartPending (s : State) (queue : List Instr) : (s.withPending queue).restartPending = s.restartPending := rfl
@[simp] theorem State.withPending_ports (s : State) (queue : List Instr) : (s.withPending queue).ports = s.ports := rfl
@[simp] theorem State.withPending_notices (s : State) (queue : List Instr) : (s.withPending queue).notices = s.notices := rfl
@[simp] theorem State.withPending_store (s : State) (queue : List Instr) : (s.withPending queue).store = s.store := rfl
@[simp] theorem State.withPending_clock (s : State) (queue : List Instr) : (s.withPending queue).clock = s.clock := rfl
@[simp] theorem State.withPending_sensors (s : State) (queue : List Instr) : (s.withPending queue).sensors = s.sensors := rfl
@[simp] theorem State.withPending_rooms (s : State) (queue : List Instr) : (s.withPending queue).rooms = s.rooms := rfl
@[simp] theorem State.withPending_pins (s : State) (queue : List Instr) : (s.withPending queue).pins = s.pins := rfl
@[simp] theorem State.withPending_duty (s : State) (queue : List Instr) : (s.withPending queue).duty = s.duty := rfl
@[simp] theorem State.withPending_plans (s : State) (queue : List Instr) : (s.withPending queue).plans = s.plans := rfl
@[simp] theorem State.withPending_slots (s : State) (queue : List Instr) : (s.withPending queue).slots = s.slots := rfl
@[simp] theorem State.withPending_planner (s : State) (queue : List Instr) : (s.withPending queue).planner = s.planner := rfl
@[simp] theorem State.withPending_balance (s : State) (queue : List Instr) : (s.withPending queue).balance = s.balance := rfl
@[simp] theorem State.withPending_channels (s : State) (queue : List Instr) : (s.withPending queue).channels = s.channels := rfl
@[simp] theorem State.withPending_supply (s : State) (queue : List Instr) : (s.withPending queue).supply = s.supply := rfl
@[simp] theorem State.withPending_conds (s : State) (queue : List Instr) : (s.withPending queue).conds = s.conds := rfl
@[simp] theorem State.withPending_faults (s : State) (queue : List Instr) : (s.withPending queue).faults = s.faults := rfl
@[simp] theorem State.withPending_watch (s : State) (queue : List Instr) : (s.withPending queue).watch = s.watch := rfl
@[simp] theorem State.withPending_source (s : State) (queue : List Instr) : (s.withPending queue).source = s.source := rfl
@[simp] theorem State.withPending_flowRequest (s : State) (queue : List Instr) : (s.withPending queue).flowRequest = s.flowRequest := rfl
@[simp] theorem State.withPending_heat (s : State) (queue : List Instr) : (s.withPending queue).heat = s.heat := rfl
@[simp] theorem State.withPending_draws (s : State) (queue : List Instr) : (s.withPending queue).draws = s.draws := rfl
@[simp] theorem State.withPending_pending (s : State) (queue : List Instr) : (s.withPending queue).pending = queue := rfl

/-! ### `State.replan` -/

@[simp] theorem State.replan_mode (s : State) (start : Nat) : (s.replan start).mode = s.mode := rfl
@[simp] theorem State.replan_restartPending (s : State) (start : Nat) : (s.replan start).restartPending = s.restartPending := rfl
@[simp] theorem State.replan_ports (s : State) (start : Nat) : (s.replan start).ports = s.ports := rfl
@[simp] theorem State.replan_notices (s : State) (start : Nat) : (s.replan start).notices = s.notices := rfl
@[simp] theorem State.replan_store (s : State) (start : Nat) : (s.replan start).store = s.store := rfl
@[simp] theorem State.replan_clock (s : State) (start : Nat) : (s.replan start).clock = s.clock := rfl
@[simp] theorem State.replan_sensors (s : State) (start : Nat) : (s.replan start).sensors = s.sensors := rfl
@[simp] theorem State.replan_rooms (s : State) (start : Nat) : (s.replan start).rooms = s.rooms := rfl
@[simp] theorem State.replan_pins (s : State) (start : Nat) : (s.replan start).pins = s.pins := rfl
@[simp] theorem State.replan_duty (s : State) (start : Nat) : (s.replan start).duty = s.duty := rfl
@[simp] theorem State.replan_plans (s : State) (start : Nat) : (s.replan start).plans = s.plans := rfl
@[simp] theorem State.replan_planner (s : State) (start : Nat) : (s.replan start).planner = s.planner := rfl
@[simp] theorem State.replan_balance (s : State) (start : Nat) : (s.replan start).balance = s.balance := rfl
@[simp] theorem State.replan_channels (s : State) (start : Nat) : (s.replan start).channels = s.channels := rfl
@[simp] theorem State.replan_supply (s : State) (start : Nat) : (s.replan start).supply = s.supply := rfl
@[simp] theorem State.replan_conds (s : State) (start : Nat) : (s.replan start).conds = s.conds := rfl
@[simp] theorem State.replan_faults (s : State) (start : Nat) : (s.replan start).faults = s.faults := rfl
@[simp] theorem State.replan_watch (s : State) (start : Nat) : (s.replan start).watch = s.watch := rfl
@[simp] theorem State.replan_source (s : State) (start : Nat) : (s.replan start).source = s.source := rfl
@[simp] theorem State.replan_flowRequest (s : State) (start : Nat) : (s.replan start).flowRequest = s.flowRequest := rfl
@[simp] theorem State.replan_heat (s : State) (start : Nat) : (s.replan start).heat = s.heat := rfl
@[simp] theorem State.replan_draws (s : State) (start : Nat) : (s.replan start).draws = s.draws := rfl
@[simp] theorem State.replan_pending (s : State) (start : Nat) : (s.replan start).pending = s.pending := rfl

/-! ### `State.markShort` -/

@[simp] theorem State.markShort_mode (s : State) (start : Nat) (lim : Limits) : (s.markShort start lim).mode = s.mode := rfl
@[simp] theorem State.markShort_restartPending (s : State) (start : Nat) (lim : Limits) : (s.markShort start lim).restartPending = s.restartPending := rfl
@[simp] theorem State.markShort_ports (s : State) (start : Nat) (lim : Limits) : (s.markShort start lim).ports = s.ports := rfl
@[simp] theorem State.markShort_notices (s : State) (start : Nat) (lim : Limits) : (s.markShort start lim).notices = s.notices := rfl
@[simp] theorem State.markShort_store (s : State) (start : Nat) (lim : Limits) : (s.markShort start lim).store = s.store := rfl
@[simp] theorem State.markShort_clock (s : State) (start : Nat) (lim : Limits) : (s.markShort start lim).clock = s.clock := rfl
@[simp] theorem State.markShort_sensors (s : State) (start : Nat) (lim : Limits) : (s.markShort start lim).sensors = s.sensors := rfl
@[simp] theorem State.markShort_rooms (s : State) (start : Nat) (lim : Limits) : (s.markShort start lim).rooms = s.rooms := rfl
@[simp] theorem State.markShort_pins (s : State) (start : Nat) (lim : Limits) : (s.markShort start lim).pins = s.pins := rfl
@[simp] theorem State.markShort_duty (s : State) (start : Nat) (lim : Limits) : (s.markShort start lim).duty = s.duty := rfl
@[simp] theorem State.markShort_plans (s : State) (start : Nat) (lim : Limits) : (s.markShort start lim).plans = s.plans := rfl
@[simp] theorem State.markShort_planner (s : State) (start : Nat) (lim : Limits) : (s.markShort start lim).planner = s.planner := rfl
@[simp] theorem State.markShort_balance (s : State) (start : Nat) (lim : Limits) : (s.markShort start lim).balance = s.balance := rfl
@[simp] theorem State.markShort_channels (s : State) (start : Nat) (lim : Limits) : (s.markShort start lim).channels = s.channels := rfl
@[simp] theorem State.markShort_supply (s : State) (start : Nat) (lim : Limits) : (s.markShort start lim).supply = s.supply := rfl
@[simp] theorem State.markShort_conds (s : State) (start : Nat) (lim : Limits) : (s.markShort start lim).conds = s.conds := rfl
@[simp] theorem State.markShort_faults (s : State) (start : Nat) (lim : Limits) : (s.markShort start lim).faults = s.faults := rfl
@[simp] theorem State.markShort_watch (s : State) (start : Nat) (lim : Limits) : (s.markShort start lim).watch = s.watch := rfl
@[simp] theorem State.markShort_source (s : State) (start : Nat) (lim : Limits) : (s.markShort start lim).source = s.source := rfl
@[simp] theorem State.markShort_flowRequest (s : State) (start : Nat) (lim : Limits) : (s.markShort start lim).flowRequest = s.flowRequest := rfl
@[simp] theorem State.markShort_heat (s : State) (start : Nat) (lim : Limits) : (s.markShort start lim).heat = s.heat := rfl
@[simp] theorem State.markShort_draws (s : State) (start : Nat) (lim : Limits) : (s.markShort start lim).draws = s.draws := rfl
@[simp] theorem State.markShort_pending (s : State) (start : Nat) (lim : Limits) : (s.markShort start lim).pending = s.pending := rfl

/-! ### `State.publishShort` -/

@[simp] theorem State.publishShort_mode (s : State) : (s.publishShort).mode = s.mode := rfl
@[simp] theorem State.publishShort_restartPending (s : State) : (s.publishShort).restartPending = s.restartPending := rfl
@[simp] theorem State.publishShort_ports (s : State) : (s.publishShort).ports = s.ports := rfl
@[simp] theorem State.publishShort_notices (s : State) : (s.publishShort).notices = s.notices := rfl
@[simp] theorem State.publishShort_store (s : State) : (s.publishShort).store = s.store := rfl
@[simp] theorem State.publishShort_clock (s : State) : (s.publishShort).clock = s.clock := rfl
@[simp] theorem State.publishShort_sensors (s : State) : (s.publishShort).sensors = s.sensors := rfl
@[simp] theorem State.publishShort_rooms (s : State) : (s.publishShort).rooms = s.rooms := rfl
@[simp] theorem State.publishShort_pins (s : State) : (s.publishShort).pins = s.pins := rfl
@[simp] theorem State.publishShort_duty (s : State) : (s.publishShort).duty = s.duty := rfl
@[simp] theorem State.publishShort_plans (s : State) : (s.publishShort).plans = s.plans := rfl
@[simp] theorem State.publishShort_slots (s : State) : (s.publishShort).slots = s.slots := rfl
@[simp] theorem State.publishShort_planner (s : State) : (s.publishShort).planner = { s.planner with shortCount := s.countShort } := rfl
@[simp] theorem State.publishShort_balance (s : State) : (s.publishShort).balance = s.balance := rfl
@[simp] theorem State.publishShort_channels (s : State) : (s.publishShort).channels = s.channels := rfl
@[simp] theorem State.publishShort_supply (s : State) : (s.publishShort).supply = s.supply := rfl
@[simp] theorem State.publishShort_conds (s : State) : (s.publishShort).conds = s.conds := rfl
@[simp] theorem State.publishShort_faults (s : State) : (s.publishShort).faults = s.faults := rfl
@[simp] theorem State.publishShort_watch (s : State) : (s.publishShort).watch = s.watch := rfl
@[simp] theorem State.publishShort_source (s : State) : (s.publishShort).source = s.source := rfl
@[simp] theorem State.publishShort_flowRequest (s : State) : (s.publishShort).flowRequest = s.flowRequest := rfl
@[simp] theorem State.publishShort_heat (s : State) : (s.publishShort).heat = s.heat := rfl
@[simp] theorem State.publishShort_draws (s : State) : (s.publishShort).draws = s.draws := rfl
@[simp] theorem State.publishShort_pending (s : State) : (s.publishShort).pending = s.pending := rfl

/-! ### `State.advanceSlot` -/

@[simp] theorem State.advanceSlot_mode (s : State) : (s.advanceSlot).mode = s.mode := rfl
@[simp] theorem State.advanceSlot_restartPending (s : State) : (s.advanceSlot).restartPending = s.restartPending := rfl
@[simp] theorem State.advanceSlot_ports (s : State) : (s.advanceSlot).ports = s.ports := rfl
@[simp] theorem State.advanceSlot_notices (s : State) : (s.advanceSlot).notices = s.notices := rfl
@[simp] theorem State.advanceSlot_store (s : State) : (s.advanceSlot).store = s.store := rfl
@[simp] theorem State.advanceSlot_clock (s : State) : (s.advanceSlot).clock = { s.clock with slot := s.clock.slot + 1 } := rfl
@[simp] theorem State.advanceSlot_sensors (s : State) : (s.advanceSlot).sensors = s.sensors := rfl
@[simp] theorem State.advanceSlot_rooms (s : State) : (s.advanceSlot).rooms = s.rooms := rfl
@[simp] theorem State.advanceSlot_pins (s : State) : (s.advanceSlot).pins = s.pins := rfl
@[simp] theorem State.advanceSlot_duty (s : State) : (s.advanceSlot).duty = s.duty := rfl
@[simp] theorem State.advanceSlot_plans (s : State) : (s.advanceSlot).plans = s.plans := rfl
@[simp] theorem State.advanceSlot_slots (s : State) : (s.advanceSlot).slots = s.slots := rfl
@[simp] theorem State.advanceSlot_planner (s : State) : (s.advanceSlot).planner = s.planner := rfl
@[simp] theorem State.advanceSlot_balance (s : State) : (s.advanceSlot).balance = s.balance := rfl
@[simp] theorem State.advanceSlot_channels (s : State) : (s.advanceSlot).channels = s.channels := rfl
@[simp] theorem State.advanceSlot_supply (s : State) : (s.advanceSlot).supply = s.supply := rfl
@[simp] theorem State.advanceSlot_conds (s : State) : (s.advanceSlot).conds = s.conds := rfl
@[simp] theorem State.advanceSlot_faults (s : State) : (s.advanceSlot).faults = s.faults := rfl
@[simp] theorem State.advanceSlot_watch (s : State) : (s.advanceSlot).watch = s.watch := rfl
@[simp] theorem State.advanceSlot_source (s : State) : (s.advanceSlot).source = s.source := rfl
@[simp] theorem State.advanceSlot_flowRequest (s : State) : (s.advanceSlot).flowRequest = s.flowRequest := rfl
@[simp] theorem State.advanceSlot_heat (s : State) : (s.advanceSlot).heat = s.heat := rfl
@[simp] theorem State.advanceSlot_draws (s : State) : (s.advanceSlot).draws = s.draws := rfl
@[simp] theorem State.advanceSlot_pending (s : State) : (s.advanceSlot).pending = s.pending := rfl

/-! ### `State.newFrame` -/

@[simp] theorem State.newFrame_mode (s : State) : (s.newFrame).mode = s.mode := rfl
@[simp] theorem State.newFrame_restartPending (s : State) : (s.newFrame).restartPending = s.restartPending := rfl
@[simp] theorem State.newFrame_ports (s : State) : (s.newFrame).ports = s.ports := rfl
@[simp] theorem State.newFrame_notices (s : State) : (s.newFrame).notices = s.notices := rfl
@[simp] theorem State.newFrame_store (s : State) : (s.newFrame).store = s.store := rfl
@[simp] theorem State.newFrame_clock (s : State) : (s.newFrame).clock = { s.clock with slot := 0, frame := s.clock.frame + 1 } := rfl
@[simp] theorem State.newFrame_sensors (s : State) : (s.newFrame).sensors = s.sensors := rfl
@[simp] theorem State.newFrame_rooms (s : State) : (s.newFrame).rooms = s.rooms := rfl
@[simp] theorem State.newFrame_pins (s : State) : (s.newFrame).pins = s.pins := rfl
@[simp] theorem State.newFrame_duty (s : State) : (s.newFrame).duty = s.duty := rfl
@[simp] theorem State.newFrame_plans (s : State) : (s.newFrame).plans = s.plans := rfl
@[simp] theorem State.newFrame_slots (s : State) : (s.newFrame).slots = s.slots := rfl
@[simp] theorem State.newFrame_planner (s : State) : (s.newFrame).planner = s.planner := rfl
@[simp] theorem State.newFrame_balance (s : State) : (s.newFrame).balance = s.balance := rfl
@[simp] theorem State.newFrame_channels (s : State) : (s.newFrame).channels = s.channels := rfl
@[simp] theorem State.newFrame_supply (s : State) : (s.newFrame).supply = s.supply := rfl
@[simp] theorem State.newFrame_conds (s : State) : (s.newFrame).conds = s.conds := rfl
@[simp] theorem State.newFrame_faults (s : State) : (s.newFrame).faults = s.faults := rfl
@[simp] theorem State.newFrame_watch (s : State) : (s.newFrame).watch = s.watch := rfl
@[simp] theorem State.newFrame_source (s : State) : (s.newFrame).source = s.source := rfl
@[simp] theorem State.newFrame_flowRequest (s : State) : (s.newFrame).flowRequest = s.flowRequest := rfl
@[simp] theorem State.newFrame_heat (s : State) : (s.newFrame).heat = s.heat := rfl
@[simp] theorem State.newFrame_draws (s : State) : (s.newFrame).draws = s.draws := rfl
@[simp] theorem State.newFrame_pending (s : State) : (s.newFrame).pending = s.pending := rfl

/-! ### `State.computeDuty` -/

@[simp] theorem State.computeDuty_mode (s : State) : (s.computeDuty).mode = s.mode := rfl
@[simp] theorem State.computeDuty_restartPending (s : State) : (s.computeDuty).restartPending = s.restartPending := rfl
@[simp] theorem State.computeDuty_ports (s : State) : (s.computeDuty).ports = s.ports := rfl
@[simp] theorem State.computeDuty_notices (s : State) : (s.computeDuty).notices = s.notices := rfl
@[simp] theorem State.computeDuty_store (s : State) : (s.computeDuty).store = s.store := rfl
@[simp] theorem State.computeDuty_clock (s : State) : (s.computeDuty).clock = s.clock := rfl
@[simp] theorem State.computeDuty_sensors (s : State) : (s.computeDuty).sensors = s.sensors := rfl
@[simp] theorem State.computeDuty_rooms (s : State) : (s.computeDuty).rooms = s.rooms := rfl
@[simp] theorem State.computeDuty_pins (s : State) : (s.computeDuty).pins = s.pins := rfl
@[simp] theorem State.computeDuty_duty (s : State) : (s.computeDuty).duty = Tab.ofFn s.dutyFor := rfl
@[simp] theorem State.computeDuty_plans (s : State) : (s.computeDuty).plans = s.plans := rfl
@[simp] theorem State.computeDuty_slots (s : State) : (s.computeDuty).slots = s.slots := rfl
@[simp] theorem State.computeDuty_planner (s : State) : (s.computeDuty).planner = s.planner := rfl
@[simp] theorem State.computeDuty_balance (s : State) : (s.computeDuty).balance = s.balance := rfl
@[simp] theorem State.computeDuty_channels (s : State) : (s.computeDuty).channels = s.channels := rfl
@[simp] theorem State.computeDuty_supply (s : State) : (s.computeDuty).supply = s.supply := rfl
@[simp] theorem State.computeDuty_conds (s : State) : (s.computeDuty).conds = s.conds := rfl
@[simp] theorem State.computeDuty_faults (s : State) : (s.computeDuty).faults = s.faults := rfl
@[simp] theorem State.computeDuty_watch (s : State) : (s.computeDuty).watch = s.watch := rfl
@[simp] theorem State.computeDuty_source (s : State) : (s.computeDuty).source = s.source := rfl
@[simp] theorem State.computeDuty_flowRequest (s : State) : (s.computeDuty).flowRequest = s.flowRequest := rfl
@[simp] theorem State.computeDuty_heat (s : State) : (s.computeDuty).heat = s.heat := rfl
@[simp] theorem State.computeDuty_draws (s : State) : (s.computeDuty).draws = s.draws := rfl
@[simp] theorem State.computeDuty_pending (s : State) : (s.computeDuty).pending = s.pending := rfl

/-! ### `State.setCarries` -/

@[simp] theorem State.setCarries_mode (s : State) : (s.setCarries).mode = s.mode := rfl
@[simp] theorem State.setCarries_restartPending (s : State) : (s.setCarries).restartPending = s.restartPending := rfl
@[simp] theorem State.setCarries_ports (s : State) : (s.setCarries).ports = s.ports := rfl
@[simp] theorem State.setCarries_notices (s : State) : (s.setCarries).notices = s.notices := rfl
@[simp] theorem State.setCarries_store (s : State) : (s.setCarries).store = s.store := rfl
@[simp] theorem State.setCarries_clock (s : State) : (s.setCarries).clock = s.clock := rfl
@[simp] theorem State.setCarries_sensors (s : State) : (s.setCarries).sensors = s.sensors := rfl
@[simp] theorem State.setCarries_rooms (s : State) : (s.setCarries).rooms = s.rooms := rfl
@[simp] theorem State.setCarries_pins (s : State) : (s.setCarries).pins = s.pins := rfl
@[simp] theorem State.setCarries_plans (s : State) : (s.setCarries).plans = s.plans := rfl
@[simp] theorem State.setCarries_slots (s : State) : (s.setCarries).slots = s.slots := rfl
@[simp] theorem State.setCarries_planner (s : State) : (s.setCarries).planner = s.planner := rfl
@[simp] theorem State.setCarries_balance (s : State) : (s.setCarries).balance = s.balance := rfl
@[simp] theorem State.setCarries_channels (s : State) : (s.setCarries).channels = s.channels := rfl
@[simp] theorem State.setCarries_supply (s : State) : (s.setCarries).supply = s.supply := rfl
@[simp] theorem State.setCarries_conds (s : State) : (s.setCarries).conds = s.conds := rfl
@[simp] theorem State.setCarries_faults (s : State) : (s.setCarries).faults = s.faults := rfl
@[simp] theorem State.setCarries_watch (s : State) : (s.setCarries).watch = s.watch := rfl
@[simp] theorem State.setCarries_source (s : State) : (s.setCarries).source = s.source := rfl
@[simp] theorem State.setCarries_flowRequest (s : State) : (s.setCarries).flowRequest = s.flowRequest := rfl
@[simp] theorem State.setCarries_heat (s : State) : (s.setCarries).heat = s.heat := rfl
@[simp] theorem State.setCarries_draws (s : State) : (s.setCarries).draws = s.draws := rfl
@[simp] theorem State.setCarries_pending (s : State) : (s.setCarries).pending = s.pending := rfl

/-! ### `State.clearCarries` -/

@[simp] theorem State.clearCarries_mode (s : State) : (s.clearCarries).mode = s.mode := rfl
@[simp] theorem State.clearCarries_restartPending (s : State) : (s.clearCarries).restartPending = s.restartPending := rfl
@[simp] theorem State.clearCarries_ports (s : State) : (s.clearCarries).ports = s.ports := rfl
@[simp] theorem State.clearCarries_notices (s : State) : (s.clearCarries).notices = s.notices := rfl
@[simp] theorem State.clearCarries_store (s : State) : (s.clearCarries).store = s.store := rfl
@[simp] theorem State.clearCarries_clock (s : State) : (s.clearCarries).clock = s.clock := rfl
@[simp] theorem State.clearCarries_sensors (s : State) : (s.clearCarries).sensors = s.sensors := rfl
@[simp] theorem State.clearCarries_rooms (s : State) : (s.clearCarries).rooms = s.rooms := rfl
@[simp] theorem State.clearCarries_pins (s : State) : (s.clearCarries).pins = s.pins := rfl
@[simp] theorem State.clearCarries_duty (s : State) : (s.clearCarries).duty = s.duty.map fun d => { d with carry := 0 } := rfl
@[simp] theorem State.clearCarries_plans (s : State) : (s.clearCarries).plans = s.plans := rfl
@[simp] theorem State.clearCarries_slots (s : State) : (s.clearCarries).slots = s.slots := rfl
@[simp] theorem State.clearCarries_planner (s : State) : (s.clearCarries).planner = s.planner := rfl
@[simp] theorem State.clearCarries_balance (s : State) : (s.clearCarries).balance = s.balance := rfl
@[simp] theorem State.clearCarries_channels (s : State) : (s.clearCarries).channels = s.channels := rfl
@[simp] theorem State.clearCarries_supply (s : State) : (s.clearCarries).supply = s.supply := rfl
@[simp] theorem State.clearCarries_conds (s : State) : (s.clearCarries).conds = s.conds := rfl
@[simp] theorem State.clearCarries_faults (s : State) : (s.clearCarries).faults = s.faults := rfl
@[simp] theorem State.clearCarries_watch (s : State) : (s.clearCarries).watch = s.watch := rfl
@[simp] theorem State.clearCarries_source (s : State) : (s.clearCarries).source = s.source := rfl
@[simp] theorem State.clearCarries_flowRequest (s : State) : (s.clearCarries).flowRequest = s.flowRequest := rfl
@[simp] theorem State.clearCarries_heat (s : State) : (s.clearCarries).heat = s.heat := rfl
@[simp] theorem State.clearCarries_draws (s : State) : (s.clearCarries).draws = s.draws := rfl
@[simp] theorem State.clearCarries_pending (s : State) : (s.clearCarries).pending = s.pending := rfl

/-! ### `State.sourceSlotEnd` -/

@[simp] theorem State.sourceSlotEnd_mode (s : State) : (s.sourceSlotEnd).mode = s.mode := rfl
@[simp] theorem State.sourceSlotEnd_restartPending (s : State) : (s.sourceSlotEnd).restartPending = s.restartPending := rfl
@[simp] theorem State.sourceSlotEnd_ports (s : State) : (s.sourceSlotEnd).ports = s.ports := rfl
@[simp] theorem State.sourceSlotEnd_notices (s : State) : (s.sourceSlotEnd).notices = s.notices := rfl
@[simp] theorem State.sourceSlotEnd_store (s : State) : (s.sourceSlotEnd).store = s.store := rfl
@[simp] theorem State.sourceSlotEnd_clock (s : State) : (s.sourceSlotEnd).clock = s.clock := rfl
@[simp] theorem State.sourceSlotEnd_sensors (s : State) : (s.sourceSlotEnd).sensors = s.sensors := rfl
@[simp] theorem State.sourceSlotEnd_rooms (s : State) : (s.sourceSlotEnd).rooms = s.rooms := rfl
@[simp] theorem State.sourceSlotEnd_pins (s : State) : (s.sourceSlotEnd).pins = s.pins := rfl
@[simp] theorem State.sourceSlotEnd_duty (s : State) : (s.sourceSlotEnd).duty = s.duty := rfl
@[simp] theorem State.sourceSlotEnd_plans (s : State) : (s.sourceSlotEnd).plans = s.plans := rfl
@[simp] theorem State.sourceSlotEnd_slots (s : State) : (s.sourceSlotEnd).slots = s.slots := rfl
@[simp] theorem State.sourceSlotEnd_planner (s : State) : (s.sourceSlotEnd).planner = s.planner := rfl
@[simp] theorem State.sourceSlotEnd_balance (s : State) : (s.sourceSlotEnd).balance = s.balance := rfl
@[simp] theorem State.sourceSlotEnd_channels (s : State) : (s.sourceSlotEnd).channels = s.channels := rfl
@[simp] theorem State.sourceSlotEnd_supply (s : State) : (s.sourceSlotEnd).supply = s.supply := rfl
@[simp] theorem State.sourceSlotEnd_conds (s : State) : (s.sourceSlotEnd).conds = s.conds := rfl
@[simp] theorem State.sourceSlotEnd_faults (s : State) : (s.sourceSlotEnd).faults = s.faults := rfl
@[simp] theorem State.sourceSlotEnd_watch (s : State) : (s.sourceSlotEnd).watch = s.watch := rfl
@[simp] theorem State.sourceSlotEnd_source (s : State) : (s.sourceSlotEnd).source = s.source.grow.countSettle s.general.settleCount := rfl
@[simp] theorem State.sourceSlotEnd_flowRequest (s : State) : (s.sourceSlotEnd).flowRequest = s.flowRequest := rfl
@[simp] theorem State.sourceSlotEnd_heat (s : State) : (s.sourceSlotEnd).heat = s.heat := rfl
@[simp] theorem State.sourceSlotEnd_draws (s : State) : (s.sourceSlotEnd).draws = s.draws := rfl
@[simp] theorem State.sourceSlotEnd_pending (s : State) : (s.sourceSlotEnd).pending = s.pending := rfl

/-! ### `State.sourceSlotStart` -/

@[simp] theorem State.sourceSlotStart_mode (s : State) : (s.sourceSlotStart).mode = s.mode := rfl
@[simp] theorem State.sourceSlotStart_restartPending (s : State) : (s.sourceSlotStart).restartPending = s.restartPending := rfl
@[simp] theorem State.sourceSlotStart_ports (s : State) : (s.sourceSlotStart).ports = s.ports := rfl
@[simp] theorem State.sourceSlotStart_notices (s : State) : (s.sourceSlotStart).notices = s.notices := rfl
@[simp] theorem State.sourceSlotStart_store (s : State) : (s.sourceSlotStart).store = s.store := rfl
@[simp] theorem State.sourceSlotStart_clock (s : State) : (s.sourceSlotStart).clock = s.clock := rfl
@[simp] theorem State.sourceSlotStart_sensors (s : State) : (s.sourceSlotStart).sensors = s.sensors := rfl
@[simp] theorem State.sourceSlotStart_rooms (s : State) : (s.sourceSlotStart).rooms = s.rooms := rfl
@[simp] theorem State.sourceSlotStart_pins (s : State) : (s.sourceSlotStart).pins = s.pins := rfl
@[simp] theorem State.sourceSlotStart_duty (s : State) : (s.sourceSlotStart).duty = s.duty := rfl
@[simp] theorem State.sourceSlotStart_plans (s : State) : (s.sourceSlotStart).plans = s.plans := rfl
@[simp] theorem State.sourceSlotStart_slots (s : State) : (s.sourceSlotStart).slots = s.slots := rfl
@[simp] theorem State.sourceSlotStart_planner (s : State) : (s.sourceSlotStart).planner = s.planner := rfl
@[simp] theorem State.sourceSlotStart_balance (s : State) : (s.sourceSlotStart).balance = s.balance := rfl
@[simp] theorem State.sourceSlotStart_channels (s : State) : (s.sourceSlotStart).channels = s.channels := rfl
@[simp] theorem State.sourceSlotStart_supply (s : State) : (s.sourceSlotStart).supply = s.supply := rfl
@[simp] theorem State.sourceSlotStart_conds (s : State) : (s.sourceSlotStart).conds = s.conds := rfl
@[simp] theorem State.sourceSlotStart_faults (s : State) : (s.sourceSlotStart).faults = s.faults := rfl
@[simp] theorem State.sourceSlotStart_watch (s : State) : (s.sourceSlotStart).watch = s.watch := rfl
@[simp] theorem State.sourceSlotStart_flowRequest (s : State) : (s.sourceSlotStart).flowRequest = s.flowRequest := rfl
@[simp] theorem State.sourceSlotStart_heat (s : State) : (s.sourceSlotStart).heat = s.heat := rfl
@[simp] theorem State.sourceSlotStart_draws (s : State) : (s.sourceSlotStart).draws = s.draws := rfl
@[simp] theorem State.sourceSlotStart_pending (s : State) : (s.sourceSlotStart).pending = s.pending := rfl

/-! ### `State.growWatches` -/

@[simp] theorem State.growWatches_mode (s : State) : (s.growWatches).mode = s.mode := rfl
@[simp] theorem State.growWatches_restartPending (s : State) : (s.growWatches).restartPending = s.restartPending := rfl
@[simp] theorem State.growWatches_ports (s : State) : (s.growWatches).ports = s.ports := rfl
@[simp] theorem State.growWatches_notices (s : State) : (s.growWatches).notices = s.notices := rfl
@[simp] theorem State.growWatches_store (s : State) : (s.growWatches).store = s.store := rfl
@[simp] theorem State.growWatches_clock (s : State) : (s.growWatches).clock = s.clock := rfl
@[simp] theorem State.growWatches_sensors (s : State) : (s.growWatches).sensors = s.sensors := rfl
@[simp] theorem State.growWatches_rooms (s : State) : (s.growWatches).rooms = s.rooms := rfl
@[simp] theorem State.growWatches_pins (s : State) : (s.growWatches).pins = s.pins := rfl
@[simp] theorem State.growWatches_duty (s : State) : (s.growWatches).duty = s.duty := rfl
@[simp] theorem State.growWatches_plans (s : State) : (s.growWatches).plans = s.plans := rfl
@[simp] theorem State.growWatches_slots (s : State) : (s.growWatches).slots = s.slots := rfl
@[simp] theorem State.growWatches_planner (s : State) : (s.growWatches).planner = s.planner := rfl
@[simp] theorem State.growWatches_balance (s : State) : (s.growWatches).balance = s.balance := rfl
@[simp] theorem State.growWatches_channels (s : State) : (s.growWatches).channels = s.channels := rfl
@[simp] theorem State.growWatches_supply (s : State) : (s.growWatches).supply = s.supply := rfl
@[simp] theorem State.growWatches_conds (s : State) : (s.growWatches).conds = s.conds := rfl
@[simp] theorem State.growWatches_faults (s : State) : (s.growWatches).faults = s.faults := rfl
@[simp] theorem State.growWatches_source (s : State) : (s.growWatches).source = s.source := rfl
@[simp] theorem State.growWatches_flowRequest (s : State) : (s.growWatches).flowRequest = s.flowRequest := rfl
@[simp] theorem State.growWatches_heat (s : State) : (s.growWatches).heat = s.heat := rfl
@[simp] theorem State.growWatches_draws (s : State) : (s.growWatches).draws = s.draws := rfl
@[simp] theorem State.growWatches_pending (s : State) : (s.growWatches).pending = s.pending := rfl

/-! ### `State.disarmPassed` -/

@[simp] theorem State.disarmPassed_mode (s : State) : (s.disarmPassed).mode = s.mode := rfl
@[simp] theorem State.disarmPassed_restartPending (s : State) : (s.disarmPassed).restartPending = s.restartPending := rfl
@[simp] theorem State.disarmPassed_ports (s : State) : (s.disarmPassed).ports = s.ports := rfl
@[simp] theorem State.disarmPassed_notices (s : State) : (s.disarmPassed).notices = s.notices := rfl
@[simp] theorem State.disarmPassed_store (s : State) : (s.disarmPassed).store = s.store := rfl
@[simp] theorem State.disarmPassed_clock (s : State) : (s.disarmPassed).clock = s.clock := rfl
@[simp] theorem State.disarmPassed_sensors (s : State) : (s.disarmPassed).sensors = s.sensors := rfl
@[simp] theorem State.disarmPassed_rooms (s : State) : (s.disarmPassed).rooms = s.rooms := rfl
@[simp] theorem State.disarmPassed_pins (s : State) : (s.disarmPassed).pins = s.pins := rfl
@[simp] theorem State.disarmPassed_duty (s : State) : (s.disarmPassed).duty = s.duty := rfl
@[simp] theorem State.disarmPassed_plans (s : State) : (s.disarmPassed).plans = s.plans := rfl
@[simp] theorem State.disarmPassed_slots (s : State) : (s.disarmPassed).slots = s.slots := rfl
@[simp] theorem State.disarmPassed_planner (s : State) : (s.disarmPassed).planner = s.planner := rfl
@[simp] theorem State.disarmPassed_balance (s : State) : (s.disarmPassed).balance = s.balance := rfl
@[simp] theorem State.disarmPassed_channels (s : State) : (s.disarmPassed).channels = s.channels := rfl
@[simp] theorem State.disarmPassed_supply (s : State) : (s.disarmPassed).supply = s.supply := rfl
@[simp] theorem State.disarmPassed_conds (s : State) : (s.disarmPassed).conds = s.conds := rfl
@[simp] theorem State.disarmPassed_faults (s : State) : (s.disarmPassed).faults = s.faults := rfl
@[simp] theorem State.disarmPassed_source (s : State) : (s.disarmPassed).source = s.source := rfl
@[simp] theorem State.disarmPassed_flowRequest (s : State) : (s.disarmPassed).flowRequest = s.flowRequest := rfl
@[simp] theorem State.disarmPassed_heat (s : State) : (s.disarmPassed).heat = s.heat := rfl
@[simp] theorem State.disarmPassed_draws (s : State) : (s.disarmPassed).draws = s.draws := rfl
@[simp] theorem State.disarmPassed_pending (s : State) : (s.disarmPassed).pending = s.pending := rfl

/-! ### `State.growRetries` -/

@[simp] theorem State.growRetries_mode (s : State) : (s.growRetries).mode = s.mode := rfl
@[simp] theorem State.growRetries_restartPending (s : State) : (s.growRetries).restartPending = s.restartPending := rfl
@[simp] theorem State.growRetries_ports (s : State) : (s.growRetries).ports = s.ports := rfl
@[simp] theorem State.growRetries_notices (s : State) : (s.growRetries).notices = s.notices := rfl
@[simp] theorem State.growRetries_store (s : State) : (s.growRetries).store = s.store := rfl
@[simp] theorem State.growRetries_clock (s : State) : (s.growRetries).clock = s.clock := rfl
@[simp] theorem State.growRetries_sensors (s : State) : (s.growRetries).sensors = s.sensors := rfl
@[simp] theorem State.growRetries_rooms (s : State) : (s.growRetries).rooms = s.rooms := rfl
@[simp] theorem State.growRetries_pins (s : State) : (s.growRetries).pins = s.pins := rfl
@[simp] theorem State.growRetries_duty (s : State) : (s.growRetries).duty = s.duty := rfl
@[simp] theorem State.growRetries_plans (s : State) : (s.growRetries).plans = s.plans := rfl
@[simp] theorem State.growRetries_slots (s : State) : (s.growRetries).slots = s.slots := rfl
@[simp] theorem State.growRetries_planner (s : State) : (s.growRetries).planner = s.planner := rfl
@[simp] theorem State.growRetries_balance (s : State) : (s.growRetries).balance = s.balance := rfl
@[simp] theorem State.growRetries_channels (s : State) : (s.growRetries).channels = s.channels := rfl
@[simp] theorem State.growRetries_supply (s : State) : (s.growRetries).supply = s.supply := rfl
@[simp] theorem State.growRetries_faults (s : State) : (s.growRetries).faults = s.faults := rfl
@[simp] theorem State.growRetries_watch (s : State) : (s.growRetries).watch = s.watch := rfl
@[simp] theorem State.growRetries_source (s : State) : (s.growRetries).source = s.source := rfl
@[simp] theorem State.growRetries_flowRequest (s : State) : (s.growRetries).flowRequest = s.flowRequest := rfl
@[simp] theorem State.growRetries_heat (s : State) : (s.growRetries).heat = s.heat := rfl
@[simp] theorem State.growRetries_draws (s : State) : (s.growRetries).draws = s.draws := rfl
@[simp] theorem State.growRetries_pending (s : State) : (s.growRetries).pending = s.pending := rfl

/-! ### `State.takeReadings` -/

@[simp] theorem State.takeReadings_mode (s : State) (codes : Codes) : (s.takeReadings codes).mode = s.mode := rfl
@[simp] theorem State.takeReadings_restartPending (s : State) (codes : Codes) : (s.takeReadings codes).restartPending = s.restartPending := rfl
@[simp] theorem State.takeReadings_ports (s : State) (codes : Codes) : (s.takeReadings codes).ports = s.ports := rfl
@[simp] theorem State.takeReadings_notices (s : State) (codes : Codes) : (s.takeReadings codes).notices = s.notices := rfl
@[simp] theorem State.takeReadings_store (s : State) (codes : Codes) : (s.takeReadings codes).store = s.store := rfl
@[simp] theorem State.takeReadings_clock (s : State) (codes : Codes) : (s.takeReadings codes).clock = s.clock := rfl
@[simp] theorem State.takeReadings_rooms (s : State) (codes : Codes) : (s.takeReadings codes).rooms = s.rooms := rfl
@[simp] theorem State.takeReadings_pins (s : State) (codes : Codes) : (s.takeReadings codes).pins = s.pins := rfl
@[simp] theorem State.takeReadings_duty (s : State) (codes : Codes) : (s.takeReadings codes).duty = s.duty := rfl
@[simp] theorem State.takeReadings_plans (s : State) (codes : Codes) : (s.takeReadings codes).plans = s.plans := rfl
@[simp] theorem State.takeReadings_slots (s : State) (codes : Codes) : (s.takeReadings codes).slots = s.slots := rfl
@[simp] theorem State.takeReadings_planner (s : State) (codes : Codes) : (s.takeReadings codes).planner = s.planner := rfl
@[simp] theorem State.takeReadings_balance (s : State) (codes : Codes) : (s.takeReadings codes).balance = s.balance := rfl
@[simp] theorem State.takeReadings_channels (s : State) (codes : Codes) : (s.takeReadings codes).channels = s.channels := rfl
@[simp] theorem State.takeReadings_supply (s : State) (codes : Codes) : (s.takeReadings codes).supply = s.supply := rfl
@[simp] theorem State.takeReadings_conds (s : State) (codes : Codes) : (s.takeReadings codes).conds = s.conds := rfl
@[simp] theorem State.takeReadings_faults (s : State) (codes : Codes) : (s.takeReadings codes).faults = s.faults := rfl
@[simp] theorem State.takeReadings_watch (s : State) (codes : Codes) : (s.takeReadings codes).watch = s.watch := rfl
@[simp] theorem State.takeReadings_source (s : State) (codes : Codes) : (s.takeReadings codes).source = s.source := rfl
@[simp] theorem State.takeReadings_flowRequest (s : State) (codes : Codes) : (s.takeReadings codes).flowRequest = s.flowRequest := rfl
@[simp] theorem State.takeReadings_heat (s : State) (codes : Codes) : (s.takeReadings codes).heat = s.heat := rfl
@[simp] theorem State.takeReadings_draws (s : State) (codes : Codes) : (s.takeReadings codes).draws = s.draws := rfl
@[simp] theorem State.takeReadings_pending (s : State) (codes : Codes) : (s.takeReadings codes).pending = s.pending := rfl

/-! ### `State.setResults` -/

@[simp] theorem State.setResults_mode (s : State) : (s.setResults).mode = s.mode := rfl
@[simp] theorem State.setResults_restartPending (s : State) : (s.setResults).restartPending = s.restartPending := rfl
@[simp] theorem State.setResults_ports (s : State) : (s.setResults).ports = s.ports := rfl
@[simp] theorem State.setResults_notices (s : State) : (s.setResults).notices = s.notices := rfl
@[simp] theorem State.setResults_store (s : State) : (s.setResults).store = s.store := rfl
@[simp] theorem State.setResults_clock (s : State) : (s.setResults).clock = s.clock := rfl
@[simp] theorem State.setResults_rooms (s : State) : (s.setResults).rooms = s.rooms := rfl
@[simp] theorem State.setResults_pins (s : State) : (s.setResults).pins = s.pins := rfl
@[simp] theorem State.setResults_duty (s : State) : (s.setResults).duty = s.duty := rfl
@[simp] theorem State.setResults_plans (s : State) : (s.setResults).plans = s.plans := rfl
@[simp] theorem State.setResults_slots (s : State) : (s.setResults).slots = s.slots := rfl
@[simp] theorem State.setResults_planner (s : State) : (s.setResults).planner = s.planner := rfl
@[simp] theorem State.setResults_balance (s : State) : (s.setResults).balance = s.balance := rfl
@[simp] theorem State.setResults_channels (s : State) : (s.setResults).channels = s.channels := rfl
@[simp] theorem State.setResults_supply (s : State) : (s.setResults).supply = s.supply := rfl
@[simp] theorem State.setResults_conds (s : State) : (s.setResults).conds = s.conds := rfl
@[simp] theorem State.setResults_faults (s : State) : (s.setResults).faults = s.faults := rfl
@[simp] theorem State.setResults_watch (s : State) : (s.setResults).watch = s.watch := rfl
@[simp] theorem State.setResults_source (s : State) : (s.setResults).source = s.source := rfl
@[simp] theorem State.setResults_flowRequest (s : State) : (s.setResults).flowRequest = s.flowRequest := rfl
@[simp] theorem State.setResults_heat (s : State) : (s.setResults).heat = s.heat := rfl
@[simp] theorem State.setResults_draws (s : State) : (s.setResults).draws = s.draws := rfl
@[simp] theorem State.setResults_pending (s : State) : (s.setResults).pending = s.pending := rfl

/-! ### `State.countHeat` -/

@[simp] theorem State.countHeat_mode (s : State) : (s.countHeat).mode = s.mode := rfl
@[simp] theorem State.countHeat_restartPending (s : State) : (s.countHeat).restartPending = s.restartPending := rfl
@[simp] theorem State.countHeat_ports (s : State) : (s.countHeat).ports = s.ports := rfl
@[simp] theorem State.countHeat_notices (s : State) : (s.countHeat).notices = s.notices := rfl
@[simp] theorem State.countHeat_store (s : State) : (s.countHeat).store = s.store := rfl
@[simp] theorem State.countHeat_clock (s : State) : (s.countHeat).clock = s.clock := rfl
@[simp] theorem State.countHeat_sensors (s : State) : (s.countHeat).sensors = s.sensors := rfl
@[simp] theorem State.countHeat_rooms (s : State) : (s.countHeat).rooms = s.rooms := rfl
@[simp] theorem State.countHeat_pins (s : State) : (s.countHeat).pins = s.pins := rfl
@[simp] theorem State.countHeat_duty (s : State) : (s.countHeat).duty = s.duty := rfl
@[simp] theorem State.countHeat_plans (s : State) : (s.countHeat).plans = s.plans := rfl
@[simp] theorem State.countHeat_slots (s : State) : (s.countHeat).slots = s.slots := rfl
@[simp] theorem State.countHeat_planner (s : State) : (s.countHeat).planner = s.planner := rfl
@[simp] theorem State.countHeat_channels (s : State) : (s.countHeat).channels = s.channels := rfl
@[simp] theorem State.countHeat_supply (s : State) : (s.countHeat).supply = s.supply := rfl
@[simp] theorem State.countHeat_conds (s : State) : (s.countHeat).conds = s.conds := rfl
@[simp] theorem State.countHeat_faults (s : State) : (s.countHeat).faults = s.faults := rfl
@[simp] theorem State.countHeat_watch (s : State) : (s.countHeat).watch = s.watch := rfl
@[simp] theorem State.countHeat_source (s : State) : (s.countHeat).source = s.source := rfl
@[simp] theorem State.countHeat_flowRequest (s : State) : (s.countHeat).flowRequest = s.flowRequest := rfl
@[simp] theorem State.countHeat_heat (s : State) : (s.countHeat).heat = s.heat := rfl
@[simp] theorem State.countHeat_draws (s : State) : (s.countHeat).draws = s.draws := rfl
@[simp] theorem State.countHeat_pending (s : State) : (s.countHeat).pending = s.pending := rfl

/-! ### `State.delist` -/

@[simp] theorem State.delist_mode (s : State) (key : CondKey) : (s.delist key).mode = s.mode := rfl
@[simp] theorem State.delist_restartPending (s : State) (key : CondKey) : (s.delist key).restartPending = s.restartPending := rfl
@[simp] theorem State.delist_ports (s : State) (key : CondKey) : (s.delist key).ports = s.ports := rfl
@[simp] theorem State.delist_notices (s : State) (key : CondKey) : (s.delist key).notices = s.notices := rfl
@[simp] theorem State.delist_store (s : State) (key : CondKey) : (s.delist key).store = s.store := rfl
@[simp] theorem State.delist_clock (s : State) (key : CondKey) : (s.delist key).clock = s.clock := rfl
@[simp] theorem State.delist_sensors (s : State) (key : CondKey) : (s.delist key).sensors = s.sensors := rfl
@[simp] theorem State.delist_rooms (s : State) (key : CondKey) : (s.delist key).rooms = s.rooms := rfl
@[simp] theorem State.delist_pins (s : State) (key : CondKey) : (s.delist key).pins = s.pins := rfl
@[simp] theorem State.delist_duty (s : State) (key : CondKey) : (s.delist key).duty = s.duty := rfl
@[simp] theorem State.delist_plans (s : State) (key : CondKey) : (s.delist key).plans = s.plans := rfl
@[simp] theorem State.delist_slots (s : State) (key : CondKey) : (s.delist key).slots = s.slots := rfl
@[simp] theorem State.delist_planner (s : State) (key : CondKey) : (s.delist key).planner = s.planner := rfl
@[simp] theorem State.delist_balance (s : State) (key : CondKey) : (s.delist key).balance = s.balance := rfl
@[simp] theorem State.delist_channels (s : State) (key : CondKey) : (s.delist key).channels = s.channels := rfl
@[simp] theorem State.delist_supply (s : State) (key : CondKey) : (s.delist key).supply = s.supply := rfl
@[simp] theorem State.delist_conds (s : State) (key : CondKey) : (s.delist key).conds = s.conds := rfl
@[simp] theorem State.delist_faults (s : State) (key : CondKey) : (s.delist key).faults = { s.faults with entries := s.faults.entries.filter (·.key != key) } := rfl
@[simp] theorem State.delist_watch (s : State) (key : CondKey) : (s.delist key).watch = s.watch := rfl
@[simp] theorem State.delist_source (s : State) (key : CondKey) : (s.delist key).source = s.source := rfl
@[simp] theorem State.delist_flowRequest (s : State) (key : CondKey) : (s.delist key).flowRequest = s.flowRequest := rfl
@[simp] theorem State.delist_heat (s : State) (key : CondKey) : (s.delist key).heat = s.heat := rfl
@[simp] theorem State.delist_draws (s : State) (key : CondKey) : (s.delist key).draws = s.draws := rfl
@[simp] theorem State.delist_pending (s : State) (key : CondKey) : (s.delist key).pending = s.pending := rfl

/-! ### `State.putPin` -/

@[simp] theorem State.putPin_mode (s : State) (pin : Fin 6) (loops : List LoopNo) (start length : Nat) : (s.putPin pin loops start length).mode = s.mode := rfl
@[simp] theorem State.putPin_restartPending (s : State) (pin : Fin 6) (loops : List LoopNo) (start length : Nat) : (s.putPin pin loops start length).restartPending = s.restartPending := rfl
@[simp] theorem State.putPin_ports (s : State) (pin : Fin 6) (loops : List LoopNo) (start length : Nat) : (s.putPin pin loops start length).ports = s.ports := rfl
@[simp] theorem State.putPin_notices (s : State) (pin : Fin 6) (loops : List LoopNo) (start length : Nat) : (s.putPin pin loops start length).notices = s.notices := rfl
@[simp] theorem State.putPin_store (s : State) (pin : Fin 6) (loops : List LoopNo) (start length : Nat) : (s.putPin pin loops start length).store = s.store := rfl
@[simp] theorem State.putPin_clock (s : State) (pin : Fin 6) (loops : List LoopNo) (start length : Nat) : (s.putPin pin loops start length).clock = s.clock := rfl
@[simp] theorem State.putPin_sensors (s : State) (pin : Fin 6) (loops : List LoopNo) (start length : Nat) : (s.putPin pin loops start length).sensors = s.sensors := rfl
@[simp] theorem State.putPin_rooms (s : State) (pin : Fin 6) (loops : List LoopNo) (start length : Nat) : (s.putPin pin loops start length).rooms = s.rooms := rfl
@[simp] theorem State.putPin_pins (s : State) (pin : Fin 6) (loops : List LoopNo) (start length : Nat) : (s.putPin pin loops start length).pins = s.pins.set pin ⟨true, sortLoops loops, start, pinLength start length⟩ := rfl
@[simp] theorem State.putPin_duty (s : State) (pin : Fin 6) (loops : List LoopNo) (start length : Nat) : (s.putPin pin loops start length).duty = s.duty := rfl
@[simp] theorem State.putPin_plans (s : State) (pin : Fin 6) (loops : List LoopNo) (start length : Nat) : (s.putPin pin loops start length).plans = s.plans := rfl
@[simp] theorem State.putPin_slots (s : State) (pin : Fin 6) (loops : List LoopNo) (start length : Nat) : (s.putPin pin loops start length).slots = s.slots := rfl
@[simp] theorem State.putPin_planner (s : State) (pin : Fin 6) (loops : List LoopNo) (start length : Nat) : (s.putPin pin loops start length).planner = s.planner := rfl
@[simp] theorem State.putPin_balance (s : State) (pin : Fin 6) (loops : List LoopNo) (start length : Nat) : (s.putPin pin loops start length).balance = s.balance := rfl
@[simp] theorem State.putPin_channels (s : State) (pin : Fin 6) (loops : List LoopNo) (start length : Nat) : (s.putPin pin loops start length).channels = s.channels := rfl
@[simp] theorem State.putPin_supply (s : State) (pin : Fin 6) (loops : List LoopNo) (start length : Nat) : (s.putPin pin loops start length).supply = s.supply := rfl
@[simp] theorem State.putPin_conds (s : State) (pin : Fin 6) (loops : List LoopNo) (start length : Nat) : (s.putPin pin loops start length).conds = s.conds := rfl
@[simp] theorem State.putPin_faults (s : State) (pin : Fin 6) (loops : List LoopNo) (start length : Nat) : (s.putPin pin loops start length).faults = s.faults := rfl
@[simp] theorem State.putPin_watch (s : State) (pin : Fin 6) (loops : List LoopNo) (start length : Nat) : (s.putPin pin loops start length).watch = s.watch := rfl
@[simp] theorem State.putPin_source (s : State) (pin : Fin 6) (loops : List LoopNo) (start length : Nat) : (s.putPin pin loops start length).source = s.source := rfl
@[simp] theorem State.putPin_flowRequest (s : State) (pin : Fin 6) (loops : List LoopNo) (start length : Nat) : (s.putPin pin loops start length).flowRequest = s.flowRequest := rfl
@[simp] theorem State.putPin_heat (s : State) (pin : Fin 6) (loops : List LoopNo) (start length : Nat) : (s.putPin pin loops start length).heat = s.heat := rfl
@[simp] theorem State.putPin_draws (s : State) (pin : Fin 6) (loops : List LoopNo) (start length : Nat) : (s.putPin pin loops start length).draws = s.draws := rfl
@[simp] theorem State.putPin_pending (s : State) (pin : Fin 6) (loops : List LoopNo) (start length : Nat) : (s.putPin pin loops start length).pending = s.pending := rfl

end Sys2Proof.Machine
end

