-- ==== Sys2Proof/Laws/Tab.lean ====
section
/-! SUPPORT. What the tables of Word.lean and Types.lean read back after each of their updates. -/

namespace Sys2Proof

namespace Tab

variable {n : Nat} {α β : Type}

theorem ext_get {t u : Tab n α} (h : ∀ i, t.get i = u.get i) : t = u := by
  obtain ⟨a, ha⟩ := t
  obtain ⟨b, hb⟩ := u
  have : a = b := by
    apply List.ext_getElem (by rw [ha, hb])
    intro i h1 h2
    exact h ⟨i, by omega⟩
  subst this
  rfl

@[simp] theorem get_set_self (t : Tab n α) (i : Fin n) (a : α) : (t.set i a).get i = a := by
  simp [get, set]

theorem get_set_ne (t : Tab n α) {i j : Fin n} (a : α) (h : j ≠ i) : (t.set i a).get j = t.get j := by
  have : i.val ≠ j.val := fun e => h (Fin.ext e.symm)
  simp [get, set, this]

theorem get_set (t : Tab n α) (i j : Fin n) (a : α) : (t.set i a).get j = if j = i then a else t.get j := by
  by_cases h : j = i
  · subst h; simp
  · simp [get_set_ne t a h, h]

@[simp] theorem get_modify_self (t : Tab n α) (i : Fin n) (f : α → α) : (t.modify i f).get i = f (t.get i) := by
  simp [modify]

theorem get_modify_ne (t : Tab n α) {i j : Fin n} (f : α → α) (h : j ≠ i) : (t.modify i f).get j = t.get j :=
  get_set_ne t _ h

theorem get_modify (t : Tab n α) (i j : Fin n) (f : α → α) :
    (t.modify i f).get j = if j = i then f (t.get i) else t.get j := get_set t i j _

@[simp] theorem get_ofFn (f : Fin n → α) (i : Fin n) : (ofFn f).get i = f i := by
  simp [get, ofFn]

@[simp] theorem get_fill (a : α) (i : Fin n) : (fill n a).get i = a := by
  simp [get, fill]

@[simp] theorem get_map (f : α → β) (t : Tab n α) (i : Fin n) : (t.map f).get i = f (t.get i) := by
  simp [get, map]

@[simp] theorem ofFn_get (t : Tab n α) : ofFn t.get = t := ext_get fun i => get_ofFn t.get i

@[simp] theorem set_get_self (t : Tab n α) (i : Fin n) : t.set i (t.get i) = t := by
  apply ext_get
  intro j
  rw [get_set]
  split <;> simp_all

theorem modify_id (t : Tab n α) (i : Fin n) : t.modify i (fun a => a) = t := set_get_self t i

/-- A record is among the cells exactly where some number reads it. -/
theorem mem_cells {t : Tab n α} {a : α} : a ∈ t.cells ↔ ∃ i, t.get i = a := by
  obtain ⟨c, h⟩ := t
  subst h
  constructor
  · intro hm
    obtain ⟨i, hi, rfl⟩ := List.getElem_of_mem hm
    exact ⟨⟨i, hi⟩, rfl⟩
  · rintro ⟨i, rfl⟩
    exact List.getElem_mem i.isLt

end Tab

namespace Machine

namespace PerMaster

variable {α : Type}

@[simp] theorem get_set_self (t : PerMaster α) (m : Master) (a : α) : (t.set m a).get m = a := by
  cases m <;> rfl

theorem get_set_ne (t : PerMaster α) {m o : Master} (a : α) (h : o ≠ m) : (t.set m a).get o = t.get o := by
  cases m <;> cases o <;> first | rfl | exact absurd rfl h

theorem get_set (t : PerMaster α) (m o : Master) (a : α) : (t.set m a).get o = if o = m then a else t.get o := by
  cases m <;> cases o <;> rfl

@[simp] theorem get_all (a : α) (m : Master) : (PerMaster.all a).get m = a := by
  cases m <;> rfl

@[simp] theorem set_set (t : PerMaster α) (m : Master) (a b : α) : (t.set m a).set m b = t.set m b := by
  cases m <;> rfl

@[simp] theorem set_get (t : PerMaster α) (m : Master) : t.set m (t.get m) = t := by
  cases m <;> rfl

theorem ext_get {t u : PerMaster α} (h : ∀ m, t.get m = u.get m) : t = u := by
  obtain ⟨a, b, c⟩ := t
  obtain ⟨a', b', c'⟩ := u
  have h1 : a = a' := h .room
  have h2 : b = b' := h .source
  have h3 : c = c' := h .service
  subst h1; subst h2; subst h3
  rfl

end PerMaster

/-! ### Conditions -/

@[simp] theorem Conditions.get_set_self (c : Conditions) (key : CondKey) (r : CondRecord) : (c.set key r).get key = r := by
  cases key <;> simp [Conditions.get, Conditions.set]

theorem Conditions.get_set_ne (c : Conditions) {key other : CondKey} (r : CondRecord) (h : other ≠ key) :
    (c.set key r).get other = c.get other := by
  cases key with
  | loop k l =>
    cases other with
    | loop k' l' =>
      by_cases hl : l' = l
      · subst hl
        have hk : loopClassNo k' ≠ loopClassNo k := by
          intro e
          apply h
          cases k <;> cases k' <;> first | rfl | exact absurd e (by decide)
        simp [Conditions.get, Conditions.set, Tab.get_set_ne _ _ hk]
      · simp [Conditions.get, Conditions.set, Tab.get_modify_ne _ _ hl]
    | _ => rfl
  | manifold k m =>
    cases other with
    | manifold k' m' =>
      cases k <;> cases k' <;> cases m <;> cases m' <;> first
        | exact absurd rfl h
        | simp [Conditions.get, Conditions.set, Tab.get_modify, Tab.get_set, ManifoldClass.no, Manifold.no]
    | _ => rfl
  | room n =>
    cases other with
    | room n' =>
      have hn : n' ≠ n := fun e => h (by rw [e])
      simp [Conditions.get, Conditions.set, Tab.get_set_ne _ _ hn]
    | _ => rfl
  | part k =>
    cases other with
    | part k' =>
      cases k <;> cases k' <;> first
        | exact absurd rfl h
        | simp [Conditions.get, Conditions.set, Tab.get_set, PartClass.no]
    | _ => rfl

theorem Conditions.get_set (c : Conditions) (key other : CondKey) (r : CondRecord) :
    (c.set key r).get other = if other = key then r else c.get other := by
  by_cases h : other = key
  · subst h; simp
  · simp [Conditions.get_set_ne c r h, h]

end Machine

end Sys2Proof
end

