-- ==== Sys2Proof/Laws/Outcome.lean ====
section
/-! SUPPORT. What a command answers: a next state always; and what serving a request comes to. -/

namespace Sys2Proof.Machine

open Sys2Proof

/-- No command faults and none is refused. -/
theorem exec_next (i : Instr) (s : State) : ∃ t, exec i s = .next t := by
  cases i <;> exact ⟨_, rfl⟩

/-- A step at a command is the command on the rest of the queue. -/
theorem step_cons {s : State} {c : Instr} {rest : List Instr} (h : s.pending = c :: rest) : step s = exec c (s.withPending rest) := by
  unfold step
  rw [h]

/-- On an empty queue the part idles. -/
theorem step_idle {s : State} (h : s.pending = []) : step s = .next s := by
  unfold step
  rw [h]

/-- A step is a command of the queue, or idling. -/
theorem step_cases {s t : State} (h : step s = .next t) :
    (s.pending = [] ∧ t = s) ∨ ∃ c rest, s.pending = c :: rest ∧ exec c (s.withPending rest) = .next t := by
  cases hp : s.pending with
  | nil =>
    rw [step_idle hp] at h
    cases h
    exact .inl ⟨rfl, rfl⟩
  | cons c rest =>
    rw [step_cons hp] at h
    exact .inr ⟨c, rest, rfl, h⟩

/-! ### Serving a request (R154, R157) -/

theorem takes_iff (s : State) (m : Master) : s.takes m = true ↔ s.mode = .running ∧ (s.ports.get m).state ≠ .replying := by
  simp [State.takes, bne]

theorem serve_taken {s : State} {m : Master} (h : s.takes m = true) (request : State → Taken) :
    s.serve m request = (request s).answer m := by
  simp [State.serve, h]

theorem serve_discarded {s : State} {m : Master} (h : s.takes m = false) (request : State → Taken) : s.serve m request = s := by
  simp [State.serve, h]

/-- A request is discarded, or answered. -/
theorem serve_cases (s : State) (m : Master) (request : State → Taken) :
    s.serve m request = s ∨ s.serve m request = (request s).answer m := by
  unfold State.serve
  split
  · exact .inr rfl
  · exact .inl rfl

/-- The port of an answered request holds its reply. -/
@[simp] theorem answer_port (t : Taken) (m : Master) : (t.answer m).ports.get m = ⟨.replying, [], false, some (t.reply m)⟩ := by
  simp [Taken.answer]

/-- The other ports are those that the effects leave. -/
theorem answer_other (t : Taken) {m o : Master} (h : o ≠ m) : (t.answer m).ports.get o = t.state.ports.get o := by
  simp [Taken.answer, PerMaster.get_set_ne _ _ h]

@[simp] theorem refuse_state (status : Status) (s : State) : (refuse status s).state = s := rfl

@[simp] theorem refuse_status (status : Status) (s : State) : (refuse status s).status = status := rfl

@[simp] theorem taken_state (status : Status) (s : State) : (taken status s).state = s := rfl

@[simp] theorem taken_status (status : Status) (s : State) : (taken status s).status = status := rfl

/-- A request from the owner's port is the request; from another port it is refused. -/
theorem owned_cases (owner m : Master) (request : State → Taken) (s : State) :
    (m = owner ∧ owned owner m request s = request s) ∨ (m ≠ owner ∧ owned owner m request s = refuse .notOwner s) := by
  unfold owned
  split
  · exact .inl ⟨‹_›, rfl⟩
  · exact .inr ⟨‹_›, rfl⟩

theorem sized_cases (allowed : Bool) (request : State → Taken) (s : State) :
    (allowed = true ∧ sized allowed request s = request s) ∨ (allowed = false ∧ sized allowed request s = refuse .badLength s) := by
  cases allowed <;> simp [sized]

/-! ### The reset hold (R36) -/

theorem whileRunning_running {s : State} (h : s.mode = .running) (effect : State → State) : s.whileRunning effect = effect s := by
  simp [State.whileRunning, h]

theorem whileRunning_held {s : State} (h : s.mode = .held) (effect : State → State) : s.whileRunning effect = s := by
  simp [State.whileRunning, h]

theorem whileRunning_cases (s : State) (effect : State → State) :
    s.whileRunning effect = s ∨ (s.mode = .running ∧ s.whileRunning effect = effect s) := by
  unfold State.whileRunning
  split
  · exact .inr ⟨‹_›, rfl⟩
  · exact .inl rfl

end Sys2Proof.Machine
end

