-- ==== Sys2Proof/Laws/PerInstr.lean ====
section
/-! SUPPORT. Statements about every command as syntax, one lemma for each constructor. -/

namespace Sys2Proof.Laws

open Sys2Proof Sys2Proof.Machine

namespace RequestFits

/-- A well-formed command that is a request has a payload that a request frame can carry (R154, step 2). -/
def Statement (i : Instr) : Prop :=
  i.wellFormed = true → ∀ port kind payload, requestIn i = some (port, kind, payload) → payload.length ≤ 48

theorem byteReceived (port : Master) (byte : Byte) (stopGood : Bool) : Statement (.byteReceived port byte stopGood) := by
  intro _ _ _ _ e; cases e

theorem receiveGapElapsed (port : Master) : Statement (.receiveGapElapsed port) := by
  intro _ _ _ _ e; cases e

theorem replySent (port : Master) : Statement (.replySent port) := by
  intro _ _ _ _ e; cases e

theorem unknownKind (port : Master) (kind : Byte) (payload : List Byte) : Statement (.unknownKind port kind payload) := by
  intro h _ _ _ e; cases e; simp_all [Instr.wellFormed, payloadFits]

theorem readTable (port : Master) (payload : List Byte) : Statement (.readTable port payload) := by
  intro h _ _ _ e; cases e; simp_all [Instr.wellFormed, payloadFits]

theorem enableNotices (port : Master) (payload : List Byte) : Statement (.enableNotices port payload) := by
  intro h _ _ _ e; cases e; simp_all [Instr.wellFormed, payloadFits]

theorem ackNotices (port : Master) (payload : List Byte) : Statement (.ackNotices port payload) := by
  intro h _ _ _ e; cases e; simp_all [Instr.wellFormed, payloadFits]

theorem postMail (port : Master) (payload : List Byte) : Statement (.postMail port payload) := by
  intro h _ _ _ e; cases e; simp_all [Instr.wellFormed, payloadFits]

theorem takeMail (port : Master) (payload : List Byte) : Statement (.takeMail port payload) := by
  intro h _ _ _ e; cases e; simp_all [Instr.wellFormed, payloadFits]

theorem postDemand (port : Master) (payload : List Byte) : Statement (.postDemand port payload) := by
  intro h _ _ _ e; cases e; simp_all [Instr.wellFormed, payloadFits]

theorem setPin (port : Master) (payload : List Byte) : Statement (.setPin port payload) := by
  intro h _ _ _ e; cases e; simp_all [Instr.wellFormed, payloadFits]

theorem dropPin (port : Master) (payload : List Byte) : Statement (.dropPin port payload) := by
  intro h _ _ _ e; cases e; simp_all [Instr.wellFormed, payloadFits]

theorem postSource (port : Master) (payload : List Byte) : Statement (.postSource port payload) := by
  intro h _ _ _ e; cases e; simp_all [Instr.wellFormed, payloadFits]

theorem writeGeneral (port : Master) (index : Byte) (record : List Byte) : Statement (.writeGeneral port index record) := by
  intro h _ _ _ e; cases e; simp only [Instr.wellFormed, recordFits, decide_eq_true_eq] at h; simp only [List.length_cons]; omega

theorem writeLoopSettings (port : Master) (index : Byte) (record : List Byte) : Statement (.writeLoopSettings port index record) := by
  intro h _ _ _ e; cases e; simp only [Instr.wellFormed, recordFits, decide_eq_true_eq] at h; simp only [List.length_cons]; omega

theorem writeRooms (port : Master) (index : Byte) (record : List Byte) : Statement (.writeRooms port index record) := by
  intro h _ _ _ e; cases e; simp only [Instr.wellFormed, recordFits, decide_eq_true_eq] at h; simp only [List.length_cons]; omega

theorem writeConversion (port : Master) (index : Byte) (record : List Byte) : Statement (.writeConversion port index record) := by
  intro h _ _ _ e; cases e; simp only [Instr.wellFormed, recordFits, decide_eq_true_eq] at h; simp only [List.length_cons]; omega

theorem writeRoutes (port : Master) (index : Byte) (record : List Byte) : Statement (.writeRoutes port index record) := by
  intro h _ _ _ e; cases e; simp only [Instr.wellFormed, recordFits, decide_eq_true_eq] at h; simp only [List.length_cons]; omega

theorem writeFaultResponses (port : Master) (index : Byte) (record : List Byte) : Statement (.writeFaultResponses port index record) := by
  intro h _ _ _ e; cases e; simp only [Instr.wellFormed, recordFits, decide_eq_true_eq] at h; simp only [List.length_cons]; omega

theorem writeSettingsOther (port : Master) (payload : List Byte) : Statement (.writeSettingsOther port payload) := by
  intro h _ _ _ e; cases e; simp_all [Instr.wellFormed, payloadFits]

theorem saveSettings (port : Master) (payload : List Byte) : Statement (.saveSettings port payload) := by
  intro h _ _ _ e; cases e; simp_all [Instr.wellFormed, payloadFits]

theorem saveComplete (agrees : Bool) : Statement (.saveComplete agrees) := by
  intro _ _ _ _ e; cases e

theorem clearFaults (port : Master) (payload : List Byte) : Statement (.clearFaults port payload) := by
  intro h _ _ _ e; cases e; simp_all [Instr.wellFormed, payloadFits]

theorem clearFaultsAll (port : Master) : Statement (.clearFaultsAll port) := by
  intro _ _ _ _ e; cases e; decide

theorem clearCapture (port : Master) (payload : List Byte) : Statement (.clearCapture port payload) := by
  intro h _ _ _ e; cases e; simp_all [Instr.wellFormed, payloadFits]

theorem clearCaptureAll (port : Master) : Statement (.clearCaptureAll port) := by
  intro _ _ _ _ e; cases e; decide

theorem relearn (port : Master) (payload : List Byte) : Statement (.relearn port payload) := by
  intro h _ _ _ e; cases e; simp_all [Instr.wellFormed, payloadFits]

theorem resetPlan (port : Master) (payload : List Byte) : Statement (.resetPlan port payload) := by
  intro h _ _ _ e; cases e; simp_all [Instr.wellFormed, payloadFits]

theorem restart (port : Master) (payload : List Byte) : Statement (.restart port payload) := by
  intro h _ _ _ e; cases e; simp_all [Instr.wellFormed, payloadFits]

theorem resetHold : Statement .resetHold := by
  intro _ _ _ _ e; cases e

theorem fullReset (supplyMillivolts : Nat) : Statement (.fullReset supplyMillivolts) := by
  intro _ _ _ _ e; cases e

theorem slotEnd (codes : Codes) : Statement (.slotEnd codes) := by
  intro _ _ _ _ e; cases e

theorem sensorFaultPresent (channel : Fin 26) : Statement (.sensorFaultPresent channel) := by
  intro _ _ _ _ e; cases e

theorem sensorFaultEnds (channel : Fin 26) : Statement (.sensorFaultEnds channel) := by
  intro _ _ _ _ e; cases e

theorem deadTimeTimeout (loop : Fin 24) : Statement (.deadTimeTimeout loop) := by
  intro _ _ _ _ e; cases e

theorem stuckClosedWindow (loop : Fin 24) : Statement (.stuckClosedWindow loop) := by
  intro _ _ _ _ e; cases e

theorem stuckOpenWindow (loop : Fin 24) : Statement (.stuckOpenWindow loop) := by
  intro _ _ _ _ e; cases e

theorem sourceTimeout : Statement .sourceTimeout := by
  intro _ _ _ _ e; cases e

theorem settleEnd : Statement .settleEnd := by
  intro _ _ _ _ e; cases e

theorem retryExpiry (cls : LoopClass) (loop : Fin 24) : Statement (.retryExpiry cls loop) := by
  intro _ _ _ _ e; cases e

theorem pendingStartServed : Statement .pendingStartServed := by
  intro _ _ _ _ e; cases e

theorem frameEnd (codes : Codes) : Statement (.frameEnd codes) := by
  intro _ _ _ _ e; cases e

theorem autosaveCheck : Statement .autosaveCheck := by
  intro _ _ _ _ e; cases e

theorem postponedAutosave : Statement .postponedAutosave := by
  intro _ _ _ _ e; cases e

theorem roomDemandTimeout (room : Fin 16) : Statement (.roomDemandTimeout room) := by
  intro _ _ _ _ e; cases e

theorem planResetBoundary (codes : Codes) : Statement (.planResetBoundary codes) := by
  intro _ _ _ _ e; cases e

theorem boostTimeElapsed (loop : Fin 24) : Statement (.boostTimeElapsed loop) := by
  intro _ _ _ _ e; cases e

theorem inrushLimit (loop : Fin 24) (milliamps onFor : Nat) : Statement (.inrushLimit loop milliamps onFor) := by
  intro _ _ _ _ e; cases e

theorem overcurrentDetected (loop : Fin 24) (milliamps driven : Nat) : Statement (.overcurrentDetected loop milliamps driven) := by
  intro _ _ _ _ e; cases e

theorem openLoadDetected (loop : Fin 24) (milliamps driven : Nat) : Statement (.openLoadDetected loop milliamps driven) := by
  intro _ _ _ _ e; cases e

theorem openLoadRecovered (loop : Fin 24) (milliamps driven : Nat) : Statement (.openLoadRecovered loop milliamps driven) := by
  intro _ _ _ _ e; cases e

theorem followerFaultRelease (loop : Fin 24) : Statement (.followerFaultRelease loop) := by
  intro _ _ _ _ e; cases e

theorem supplyFallsLow (millivolts : Nat) : Statement (.supplyFallsLow millivolts) := by
  intro _ _ _ _ e; cases e

theorem supplyReturns (millivolts : Nat) : Statement (.supplyReturns millivolts) := by
  intro _ _ _ _ e; cases e

theorem drivePeriodEnd (loop : Fin 24) : Statement (.drivePeriodEnd loop) := by
  intro _ _ _ _ e; cases e

end RequestFits

end Sys2Proof.Laws
end

