-- ==== Sys2Proof/Laws/Reach.lean ====
section
/-! SUPPORT. What each shared operation can reach: a `Reach A s t` says that the state `t` differs from `s` in the fields of `A` at most. One lemma
for each operation of Machine/, from the smallest to the boundaries; a later proof cites it in place of unfolding the operation. -/

namespace Sys2Proof.Machine

open Sys2Proof

/-- The fields of State, by name. -/
inductive Field where
  | mode | restartPending | ports | notices | store | clock | sensors | rooms | pins | duty | plans | slots | planner | balance | channels
  | supply | conds | faults | watch | source | flowRequest | heat | draws | pending
deriving DecidableEq, Repr

/-- Two states agree in a field. -/
def Same (s t : State) : Field → Prop
  | .mode => t.mode = s.mode
  | .restartPending => t.restartPending = s.restartPending
  | .ports => t.ports = s.ports
  | .notices => t.notices = s.notices
  | .store => t.store = s.store
  | .clock => t.clock = s.clock
  | .sensors => t.sensors = s.sensors
  | .rooms => t.rooms = s.rooms
  | .pins => t.pins = s.pins
  | .duty => t.duty = s.duty
  | .plans => t.plans = s.plans
  | .slots => t.slots = s.slots
  | .planner => t.planner = s.planner
  | .balance => t.balance = s.balance
  | .channels => t.channels = s.channels
  | .supply => t.supply = s.supply
  | .conds => t.conds = s.conds
  | .faults => t.faults = s.faults
  | .watch => t.watch = s.watch
  | .source => t.source = s.source
  | .flowRequest => t.flowRequest = s.flowRequest
  | .heat => t.heat = s.heat
  | .draws => t.draws = s.draws
  | .pending => t.pending = s.pending

theorem same_rfl (s : State) (f : Field) : Same s s f := by cases f <;> rfl

theorem same_trans {s t u : State} {f : Field} (h : Same s t f) (k : Same t u f) : Same s u f := by
  cases f <;> exact Eq.trans k h

/-- The state `t` differs from `s` in the fields of `A` at most. -/
def Reach (A : List Field) (s t : State) : Prop := ∀ f, f ∉ A → Same s t f

variable {A B : List Field}

theorem Reach.refl (A : List Field) (s : State) : Reach A s s := fun f _ => same_rfl s f

theorem Reach.trans {s t u : State} (h : Reach A s t) (k : Reach A t u) : Reach A s u := fun f hf => same_trans (h f hf) (k f hf)

theorem Reach.mono {s t : State} (h : Reach A s t) (sub : ∀ f, f ∈ A → f ∈ B) : Reach B s t := fun f hf => h f fun m => hf (sub f m)

theorem Reach.ite {s t u : State} {c : Prop} [Decidable c] (h : Reach A s t) (k : Reach A s u) : Reach A s (if c then t else u) := by
  split <;> assumption

/-- A step of many, each within `A`, stays within `A`. -/
theorem Reach.foldl {α : Type} {f : State → α → State} (h : ∀ s x, Reach A s (f s x)) (l : List α) (s : State) :
    Reach A s (l.foldl f s) := by
  induction l generalizing s with
  | nil => exact .refl A s
  | cons x xs ih => exact (h s x).trans (ih _)

theorem Reach.get {s t : State} (h : Reach A s t) (f : Field) (hf : f ∉ A := by decide) : Same s t f := h f hf

/-! ### Flags and records -/

theorem raise_reach (s : State) (k : Kind) : Reach [.notices] s (s.raise k) := by
  intro f hf; cases f <;> first | rfl | exact absurd (by decide) hf

theorem raiseIf_reach (s : State) (c : Bool) (k : Kind) : Reach [.notices] s (s.raiseIf c k) := .ite (raise_reach s k) (.refl _ s)

theorem setRecord_reach (s : State) (key : CondKey) (r : CondRecord) : Reach [.conds] s (s.setRecord key r) := by
  intro f hf; cases f <;> first | rfl | exact absurd (by decide) hf

theorem putRecord_reach (s : State) (key : CondKey) (r : CondRecord) : Reach [.conds, .notices] s (s.putRecord key r) :=
  ((setRecord_reach s key r).mono (by decide)).trans ((raiseIf_reach _ _ _).mono (by decide))

theorem enlist_reach (s : State) (key : CondKey) (mode : ResponseMode) : Reach [.faults, .notices] s (s.enlist key mode) := by
  unfold State.enlist
  split
  · exact .refl _ s
  split
  · intro f hf; cases f <;> first | rfl | exact absurd (by decide) hf
  split
  · intro f hf; cases f <;> first | rfl | exact absurd (by decide) hf
  split
  · exact .refl _ s
  · intro f hf; cases f <;> first | rfl | exact absurd (by decide) hf

/-- What taking a condition or ending one can reach at the records and the list. -/
abbrev listFields : List Field := [.conds, .faults, .notices]

theorem conditionPresent_reach (s : State) (key : CondKey) : Reach listFields s (s.conditionPresent key) :=
  ((enlist_reach s key _).mono (by decide)).trans ((putRecord_reach _ key _).mono (by decide))

theorem enlistAsOf_reach (s was : State) (key : CondKey) : Reach [.faults, .notices] s (s.enlistAsOf was key) := by
  intro f hf; cases f <;> first | rfl | exact absurd (by decide) hf

theorem conditionEnd_reach (s : State) (key : CondKey) : Reach [.conds, .notices] s (s.conditionEnd key) :=
  .ite (putRecord_reach s key _) (.refl _ s)

theorem retryExpire_reach (s : State) (key : CondKey) : Reach listFields s (s.retryExpire key) := by
  unfold State.retryExpire
  dsimp only
  exact .ite (((enlist_reach s key _).mono (by decide)).trans ((putRecord_reach _ key _).mono (by decide)))
    ((putRecord_reach s key _).mono (by decide))

theorem growRetries_reach (s : State) : Reach [.conds] s (s.growRetries) := by
  intro f hf; cases f <;> first | rfl | exact absurd (by decide) hf

theorem delist_reach (s : State) (key : CondKey) : Reach [.faults] s (s.delist key) := by
  intro f hf; cases f <;> first | rfl | exact absurd (by decide) hf

/-! ### The plan -/

/-- What a correction or a placement can reach. -/
abbrev planFields : List Field := [.plans, .slots, .planner, .duty, .notices]

theorem onPlan_reach (s : State) (l : LoopNo) (g : LoopPlan → LoopPlan) : Reach [.plans] s (s.onPlan l g) := by
  intro f hf; cases f <;> first | rfl | exact absurd (by decide) hf

theorem onRun_reach (s : State) (l : LoopNo) (g : Run → Run) : Reach [.plans] s (s.onRun l g) := by
  intro f hf; cases f <;> first | rfl | exact absurd (by decide) hf

theorem onFlags_reach (s : State) (l : LoopNo) (g : PlacementFlags → PlacementFlags) : Reach [.plans] s (s.onFlags l g) := by
  intro f hf; cases f <;> first | rfl | exact absurd (by decide) hf

theorem onDuty_reach (s : State) (l : LoopNo) (g : Duty → Duty) : Reach [.duty] s (s.onDuty l g) := by
  intro f hf; cases f <;> first | rfl | exact absurd (by decide) hf

theorem replan_reach (s : State) (start : Nat) : Reach [.slots] s (s.replan start) := by
  intro f hf; cases f <;> first | rfl | exact absurd (by decide) hf

theorem markShort_reach (s : State) (start : Nat) (lim : Limits) : Reach [.slots] s (s.markShort start lim) := by
  intro f hf; cases f <;> first | rfl | exact absurd (by decide) hf

theorem publishShort_reach (s : State) : Reach [.planner] s (s.publishShort) := by
  intro f hf; cases f <;> first | rfl | exact absurd (by decide) hf

theorem setCarries_reach (s : State) : Reach [.duty] s (s.setCarries) := by
  intro f hf; cases f <;> first | rfl | exact absurd (by decide) hf

theorem clearPlan_reach (s : State) : Reach [.plans, .slots, .planner] s (s.clearPlan) := by
  intro f hf; cases f <;> first | rfl | exact absurd (by decide) hf

theorem putRun_reach (s : State) (start : Nat) (l : LoopNo) (kind : RunKind) (first last : Nat) (c : Bool) (pin : Nat) : Reach [.plans, .slots, .planner] s (s.putRun start l kind first last c pin) := by
  intro f hf; cases f <;> first | rfl | exact absurd (by decide) hf

theorem defer_reach (s : State) (l : LoopNo) : Reach [.plans] s (s.defer l) := by
  intro f hf; cases f <;> first | rfl | exact absurd (by decide) hf

theorem trimRun_reach (s : State) (s0 t : Nat) (l : LoopNo) : Reach [.plans, .slots, .duty] s (s.trimRun s0 t l) := by
  intro f hf; cases f <;> first | rfl | exact absurd (by decide) hf

theorem endRunsForOff_reach (s : State) (s0 : Nat) : Reach [.plans, .slots] s (s.endRunsForOff s0) := by
  intro f hf; cases f <;> first | rfl | exact absurd (by decide) hf

theorem giveTopUp_reach (s : State) (lim : Limits) (cont : Tab 24 Bool) (start t : Nat) (l : LoopNo) : Reach [.plans, .slots, .planner, .duty] s (s.giveTopUp lim cont start t l) := by
  intro f hf; cases f <;> first | rfl | exact absurd (by decide) hf

theorem reevaluateShort_reach (s : State) (before : Tab 48 SlotPlan) (start : Nat) (lim : Limits) :
    Reach [.slots, .planner, .notices] s (s.reevaluateShort before start lim) :=
  (((markShort_reach s start lim).mono (by decide)).trans ((publishShort_reach _).mono (by decide))).trans
    ((raiseIf_reach _ _ _).mono (by decide))

theorem placePinned_reach (s : State) (lim : Limits) (cont : Tab 24 Bool) (pin : Nat) (p : Pin) (l : LoopNo) :
    Reach [.plans, .slots, .planner] s (s.placePinned lim cont pin p l) := by
  unfold State.placePinned
  refine .ite (.refl _ s) (.ite ((defer_reach s l).mono (by decide)) ?_)
  dsimp only
  split
  · exact (onFlags_reach s l _).mono (by decide)
  · exact .ite (putRun_reach s _ _ _ _ _ _ _) ((onFlags_reach s l _).mono (by decide))

theorem placePins_reach (s : State) (lim : Limits) (cont : Tab 24 Bool) : Reach [.plans, .slots, .planner] s (s.placePins lim cont) := by
  unfold State.placePins
  refine Reach.foldl (fun u i => ?_) _ s
  refine .ite ?_ (.refl _ u)
  exact Reach.foldl (fun v l => placePinned_reach v lim cont _ _ l) _ u

theorem placeOrdinary_reach (lim : Limits) (cont : Tab 24 Bool) (s : State) (l : LoopNo) :
    Reach [.plans, .slots, .planner] s (State.placeOrdinary lim cont s l) := by
  unfold State.placeOrdinary
  refine .ite ((onFlags_reach s l _).mono (by decide)) ?_
  split
  · exact (defer_reach s l).mono (by decide)
  · exact (putRun_reach s _ _ _ _ _ _ _).trans ((onFlags_reach _ l _).mono (by decide))

theorem deferHeld_reach (s : State) : Reach [.plans] s s.deferHeld := Reach.foldl (fun s l => defer_reach s l) _ s

theorem deferAll_reach (s : State) : Reach [.plans] s s.deferAll := Reach.foldl (fun s l => defer_reach s l) _ s

theorem placeOrdinaries_reach (s : State) (lim : Limits) (cont : Tab 24 Bool) :
    Reach [.plans, .slots, .planner] s (s.placeOrdinaries lim cont) :=
  ((deferHeld_reach s).mono (by decide)).trans (Reach.foldl (fun s l => placeOrdinary_reach lim cont s l) _ _)

theorem placeExercise_reach (lim : Limits) (cont : Tab 24 Bool) (s : State) (l : LoopNo) :
    Reach [.plans, .slots, .planner] s (State.placeExercise lim cont s l) := by
  unfold State.placeExercise
  split
  · exact .refl _ s
  · exact putRun_reach s _ _ _ _ _ _ _

theorem placeExercises_reach (s : State) (lim : Limits) (cont : Tab 24 Bool) :
    Reach [.plans, .slots, .planner] s (s.placeExercises lim cont) := Reach.foldl (fun s l => placeExercise_reach lim cont s l) _ s

theorem topUpSlot_reach (lim : Limits) (cont : Tab 24 Bool) (start t n : Nat) (s : State) :
    Reach [.plans, .slots, .planner, .duty] s (State.topUpSlot lim cont start t n s) := by
  induction n generalizing s with
  | zero => exact .refl _ s
  | succ n ih =>
    unfold State.topUpSlot
    refine .ite ?_ (.refl _ s)
    split
    · exact .refl _ s
    · exact (giveTopUp_reach s lim cont start t _).trans (ih _)

theorem topUpPass_reach (s : State) (lim : Limits) (cont : Tab 24 Bool) (start : Nat) :
    Reach [.plans, .slots, .planner, .duty] s (s.topUpPass lim cont start) :=
  Reach.foldl (fun s t => topUpSlot_reach lim cont start t 24 s) _ s

theorem place_reach (s : State) (cont : Tab 24 Bool) (frameZero : Bool) : Reach planFields s (s.place cont frameZero) := by
  unfold State.place
  dsimp only
  refine Reach.trans ?_ ((raiseIf_reach _ _ _).mono (by decide))
  refine Reach.trans ?_ ((raiseIf_reach _ _ _).mono (by decide))
  refine Reach.trans ?_ ((raiseIf_reach _ _ _).mono (by decide))
  refine Reach.trans ?_ ((publishShort_reach _).mono (by decide))
  refine Reach.trans ?_ ((markShort_reach _ _ _).mono (by decide))
  refine Reach.trans ?_ ((setCarries_reach _).mono (by decide))
  have clear := (clearPlan_reach s).mono (B := planFields) (by decide)
  have ordinary : Reach planFields s (if s.source.view = .off then s.clearPlan.deferAll
      else (s.clearPlan.placePins s.source.limits cont).placeOrdinaries s.source.limits cont) :=
    .ite (clear.trans ((deferAll_reach _).mono (by decide)))
      ((clear.trans ((placePins_reach _ _ _).mono (by decide))).trans ((placeOrdinaries_reach _ _ _).mono (by decide)))
  have exercised := ordinary.trans ((placeExercises_reach _ s.source.limits cont).mono (by decide))
  exact .ite (exercised.trans ((topUpPass_reach _ _ _ _).mono (by decide))) exercised

theorem trimSlot_reach (s0 ceiling t n : Nat) (s : State) : Reach [.plans, .slots, .duty] s (State.trimSlot s0 ceiling t n s) := by
  induction n generalizing s with
  | zero => exact .refl _ s
  | succ n ih =>
    unfold State.trimSlot
    refine .ite ?_ (.refl _ s)
    split
    · exact .refl _ s
    · exact (trimRun_reach s s0 t _).trans (ih _)

theorem trim_reach (s : State) (s0 ceiling : Nat) : Reach [.plans, .slots, .duty] s (s.trim s0 ceiling) :=
  Reach.foldl (fun s t => trimSlot_reach s0 ceiling t 24 s) _ s

theorem topUpRerun_reach (s : State) (before : Tab 48 SlotPlan) (s0 : Nat) (lim : Limits) :
    Reach planFields s (s.topUpRerun before s0 lim) :=
  ((topUpPass_reach s lim _ s0).mono (by decide)).trans ((reevaluateShort_reach _ _ _ _).mono (by decide))

theorem rerunIfApplies_reach (s : State) (before : Tab 48 SlotPlan) (s0 : Nat) (lim : Limits) :
    Reach planFields s (s.rerunIfApplies before s0 lim) := .ite (topUpRerun_reach s before s0 lim) (.refl _ s)

theorem correctForSource_reach (s was : State) : Reach planFields s (s.correctForSource was) := by
  unfold State.correctForSource
  dsimp only
  refine .ite (.refl _ s) (.ite ?_ ?_)
  · exact ((endRunsForOff_reach s _).mono (by decide)).trans ((reevaluateShort_reach _ _ _ _).mono (by decide))
  have trimmed (c : Bool) (s0 ceiling : Nat) : Reach planFields s (if c = true then (s.replan s0).trim s0 ceiling else s) :=
    .ite (((replan_reach s s0).mono (by decide)).trans ((trim_reach _ s0 ceiling).mono (by decide))) (.refl _ s)
  refine .ite (.ite ?_ (.ite ?_ (trimmed _ _ _))) (.ite ?_ (trimmed _ _ _))
  · exact ((trimmed _ _ _).trans ((replan_reach _ _).mono (by decide))).trans (topUpRerun_reach _ _ _ _)
  · exact (trimmed _ _ _).trans ((reevaluateShort_reach _ _ _ _).mono (by decide))
  · exact (trimmed _ _ _).trans ((reevaluateShort_reach _ _ _ _).mono (by decide))

theorem faultRun_reach (s : State) (s0 : Nat) (l : LoopNo) : Reach [.plans] s (s.faultRun s0 l) := .ite (.refl _ s) (onRun_reach s l _)

theorem faultRuns_reach (s : State) (s0 : Nat) (loops : List LoopNo) : Reach [.plans] s (s.faultRuns s0 loops) :=
  Reach.foldl (fun s l => faultRun_reach s s0 l) _ s

theorem correctForHolds_reach (s : State) (loops : List LoopNo) (old : LoopNo → SafePosition) :
    Reach planFields s (s.correctForHolds loops old) := by
  unfold State.correctForHolds
  dsimp only
  refine .ite (.refl _ s) ?_
  have planned (changed : List LoopNo) (s0 : Nat) : Reach planFields s ((s.faultRuns s0 changed).replan s0) :=
    ((faultRuns_reach s s0 changed).mono (by decide)).trans ((replan_reach _ s0).mono (by decide))
  have trimmed (c : Bool) (changed : List LoopNo) (s0 ceiling : Nat) : Reach planFields s
      (if c = true then ((s.faultRuns s0 changed).replan s0).trim s0 ceiling else (s.faultRuns s0 changed).replan s0) :=
    .ite ((planned changed s0).trans ((trim_reach _ s0 ceiling).mono (by decide))) (planned changed s0)
  exact .ite ((trimmed _ _ _ _).trans (rerunIfApplies_reach _ _ _ _)) (trimmed _ _ _ _)

end Sys2Proof.Machine
end

