-- ==== Sys2Proof/Laws/ReachBoundary.lean ====
section
/-! SUPPORT. What the channels', the supervisor's, the boundaries' and the requests' operations can reach (Laws/Reach.lean). -/

namespace Sys2Proof.Machine

open Sys2Proof

/-! ### The channels -/

/-- What an end of an energised period can reach. -/
abbrev periodFields : List Field := [.channels, .balance, .watch, .conds, .notices]

theorem onChannel_reach (s : State) (l : LoopNo) (g : Channel → Channel) : Reach [.channels] s (s.onChannel l g) := by
  intro f hf; cases f <;> first | rfl | exact absurd (by decide) hf

theorem setChannelState_reach (s : State) (l : LoopNo) (st : ChannelState) (why : PendingFor) : Reach [.channels] s (s.setChannelState l st why) := by
  intro f hf; cases f <;> first | rfl | exact absurd (by decide) hf

theorem onBalance_reach (s : State) (l : LoopNo) (g : Balance → Balance) : Reach [.balance] s (s.onBalance l g) := by
  intro f hf; cases f <;> first | rfl | exact absurd (by decide) hf

theorem onWatch_reach (s : State) (l : LoopNo) (g : Watch → Watch) : Reach [.watch] s (s.onWatch l g) := by
  intro f hf; cases f <;> first | rfl | exact absurd (by decide) hf

theorem onRoom_reach (s : State) (r : Fin 16) (g : Room → Room) : Reach [.rooms] s (s.onRoom r g) := by
  intro f hf; cases f <;> first | rfl | exact absurd (by decide) hf

theorem onStore_reach (s : State) (g : Store → Store) : Reach [.store] s (s.onStore g) := by
  intro f hf; cases f <;> first | rfl | exact absurd (by decide) hf

theorem setPort_reach (s : State) (m : Master) (p : Port) : Reach [.ports] s (s.setPort m p) := by
  intro f hf; cases f <;> first | rfl | exact absurd (by decide) hf

theorem setNotices_reach (s : State) (m : Master) (n : Notices) : Reach [.notices] s (s.setNotices m n) := by
  intro f hf; cases f <;> first | rfl | exact absurd (by decide) hf

theorem startChannel_reach (s : State) (l : LoopNo) (st : ChannelState) : Reach [.channels, .balance, .watch] s (s.startChannel l st) := by
  intro f hf; cases f <;> first | rfl | exact absurd (by decide) hf

theorem serveOne_reach (s : State) (l : LoopNo) : Reach [.channels, .balance, .watch, .supply] s (s.serveOne l) := by
  unfold State.serveOne
  dsimp only
  refine ((startChannel_reach s l (s.channels.get l).pendingFor.served).mono (by decide)).trans ?_
  generalize s.startChannel l (s.channels.get l).pendingFor.served = u
  intro f hf; cases f <;> first | rfl | exact absurd (by decide) hf

theorem endPeriod_reach (s : State) (l : LoopNo) : Reach periodFields s (s.endPeriod l) := by
  unfold State.endPeriod
  refine .ite ?_ (.refl _ s)
  refine Reach.trans ?_ ((conditionEnd_reach _ _).mono (by decide))
  refine Reach.trans ?_ ((conditionEnd_reach _ _).mono (by decide))
  refine Reach.trans ?_ ((conditionEnd_reach _ _).mono (by decide))
  exact (((onChannel_reach s l _).mono (by decide)).trans ((onBalance_reach _ l _).mono (by decide))).trans
    ((onWatch_reach _ l _).mono (by decide))

theorem unblock_reach (s : State) (l : LoopNo) (cause : BlockCause) : Reach [.channels] s (s.unblock l cause) := by
  unfold State.unblock
  dsimp only
  exact .ite (.ite ((onChannel_reach s l _).trans (setChannelState_reach _ l _ _)) (onChannel_reach s l _)) (.refl _ s)

theorem releaseStale_reach (s : State) (l : LoopNo) : Reach [.channels] s (s.releaseStale l) := .ite (unblock_reach s l _) (.refl _ s)

theorem deEnergise_reach (s : State) (l : LoopNo) : Reach periodFields s (s.deEnergise l) := by
  unfold State.deEnergise
  dsimp only
  exact .ite (.ite ((endPeriod_reach s l).trans ((releaseStale_reach _ _).mono (by decide))) (endPeriod_reach s l)) (.refl _ s)

theorem block_reach (s : State) (l : LoopNo) (cause : BlockCause) : Reach periodFields s (s.block l cause) :=
  ((onChannel_reach s l _).mono (by decide)).trans (deEnergise_reach _ l)

/-- What a start can reach. -/
abbrev startFields : List Field := [.channels, .balance, .watch, .supply]

theorem startRun_reach (s : State) (l : LoopNo) : Reach startFields s (s.startRun l) := by
  have leader := (startChannel_reach s l .boost).mono (B := startFields) (by decide)
  have both : Reach startFields s
      (if s.followerStarts l then (s.startChannel l .boost).startChannel (partner l) .boost else s.startChannel l .boost) :=
    .ite (leader.trans ((startChannel_reach _ _ _).mono (by decide))) leader
  refine both.trans ?_
  intro f hf; cases f <;> first | rfl | exact absurd (by decide) hf

theorem postponeRun_reach (s : State) (l : LoopNo) : Reach [.channels] s (s.postponeRun l) :=
  .ite ((setChannelState_reach s l _ _).trans (setChannelState_reach _ _ _ _)) (setChannelState_reach s l _ _)

theorem planStart_reach (s : State) (l : LoopNo) : Reach startFields s (s.planStart l) :=
  .ite (.ite (startRun_reach s l) ((postponeRun_reach s l).mono (by decide))) (.refl _ s)

theorem arbiterTurn_reach (s : State) (l : LoopNo) : Reach startFields s (s.arbiterTurn l) :=
  .ite (.refl _ s) (.ite (.refl _ s) (.ite (.ite ((serveOne_reach s l).trans (serveOne_reach _ _)) (.refl _ s))
    (.ite (serveOne_reach s l) (.refl _ s))))

theorem arbiter_reach (s : State) : Reach startFields s s.arbiter := Reach.foldl arbiterTurn_reach _ s

theorem startSlotChannels_reach (s : State) : Reach startFields s s.startSlotChannels := by
  unfold State.startSlotChannels
  dsimp only
  refine Reach.trans (t := (allLoops.foldl State.planStart { s with supply := { s.supply with planStarts := 0, extraStarts := 0 } }).arbiter) ?_ ?_
  · refine Reach.trans ?_ (arbiter_reach _)
    refine Reach.trans ?_ (Reach.foldl planStart_reach _ _)
    intro f hf; cases f <;> first | rfl | exact absurd (by decide) hf
  · generalize (allLoops.foldl State.planStart { s with supply := { s.supply with planStarts := 0, extraStarts := 0 } }).arbiter = u
    intro f hf; cases f <;> first | rfl | exact absurd (by decide) hf

theorem channelForHold_reach (s : State) (l : LoopNo) (old : SafePosition) : Reach periodFields s (s.channelForHold l old) := by
  unfold State.channelForHold
  dsimp only
  have set (st : ChannelState) (why : PendingFor) := (setChannelState_reach s l st why).mono (B := periodFields) (by decide)
  exact .ite (.refl _ s) (.ite (block_reach s l _) (.ite (.ite (.refl _ s) ((unblock_reach s l _).mono (by decide)))
    (.ite (.ite (set _ _) (.refl _ s)) (.ite (.ite (block_reach s l _) (set _ _)) (.refl _ s)))))

theorem endSlotRun_reach (s : State) (l : LoopNo) : Reach periodFields s (s.endSlotRun l) := by
  unfold State.endSlotRun
  dsimp only
  have off (st : ChannelState) (why : PendingFor) := (deEnergise_reach s l).trans ((setChannelState_reach _ l st why).mono (by decide))
  exact .ite (.ite (off _ _) (.ite (.refl _ s) (off _ _))) (.refl _ s)

theorem endSlotSafeOpen_reach (s : State) (l : LoopNo) : Reach periodFields s (s.endSlotSafeOpen l) :=
  .ite (.ite (block_reach s l _) ((deEnergise_reach s l).trans ((setChannelState_reach _ l _ _).mono (by decide)))) (.refl _ s)

theorem endSafeOpens_reach (s : State) : Reach periodFields s s.endSafeOpens := Reach.foldl endSlotSafeOpen_reach _ s

theorem endSlotChannels_reach (s : State) : Reach periodFields s s.endSlotChannels :=
  (endSafeOpens_reach s).trans (Reach.foldl endSlotRun_reach _ _)

theorem yieldRun_reach (s : State) (l : LoopNo) : Reach periodFields s (s.yieldRun l) :=
  .ite ((deEnergise_reach s l).trans ((setChannelState_reach _ l _ _).mono (by decide))) (.refl _ s)

theorem endLastSlotChannels_reach (s : State) : Reach periodFields s s.endLastSlotChannels :=
  (endSafeOpens_reach s).trans (Reach.foldl yieldRun_reach _ _)

theorem frameChannel_reach (s : State) (l : LoopNo) : Reach periodFields s (s.frameChannel l) := by
  unfold State.frameChannel
  dsimp only
  have off (st : ChannelState) (why : PendingFor) := (deEnergise_reach s l).trans ((setChannelState_reach _ l st why).mono (by decide))
  exact .ite (.ite (off _ _) (.ite (.refl _ s) (off _ _))) (.ite ((setChannelState_reach s l _ _).mono (by decide)) (.refl _ s))

theorem endRestartWait_reach (s : State) (l : LoopNo) : Reach [.channels] s (s.endRestartWait l) :=
  .ite (setChannelState_reach s l _ _) (.refl _ s)

theorem frameChannels_reach (s : State) : Reach periodFields s s.frameChannels := by
  unfold State.frameChannels
  dsimp only
  refine Reach.trans ?_ ((Reach.foldl endRestartWait_reach _ _).mono (by decide))
  refine Reach.trans ?_ ((Reach.foldl releaseStale_reach _ _).mono (by decide))
  exact (Reach.foldl frameChannel_reach _ s).trans (endSafeOpens_reach _)

theorem resetChannel_reach (s : State) (l : LoopNo) : Reach [.channels] s (s.resetChannel l) :=
  .ite (.refl _ s) (.ite (setChannelState_reach s l _ _) (setChannelState_reach s l _ _))

theorem resetChannels_reach (s : State) : Reach periodFields s s.resetChannels :=
  (Reach.foldl deEnergise_reach _ s).trans ((Reach.foldl resetChannel_reach _ _).mono (by decide))

/-! ### The supervisor -/

/-- What a condition that becomes present or ends can reach. -/
abbrev faultFields : List Field := [.conds, .faults, .notices, .channels, .balance, .watch, .plans, .slots, .planner, .duty]

theorem handChannel_reach (before : Conditions) (s : State) (l : LoopNo) : Reach periodFields s (State.handChannel before s l) :=
  channelForHold_reach s l _

theorem markReleased_reach (before : Conditions) (s : State) (l : LoopNo) : Reach [.plans] s (State.markReleased before s l) :=
  .ite (onPlan_reach s l _) (.refl _ s)

theorem handHold_reach (s : State) (before : Conditions) (l : LoopNo) : Reach faultFields s (s.handHold before l) := by
  unfold State.handHold
  dsimp only
  refine Reach.trans ?_ ((correctForHolds_reach _ _ _).mono (by decide))
  refine Reach.trans ?_ ((Reach.foldl (markReleased_reach before) _ _).mono (by decide))
  exact (Reach.foldl (handChannel_reach before) _ s).mono (by decide)

theorem shutDown_reach (s : State) (m : Manifold) : Reach periodFields s (s.shutDown m) := Reach.foldl (fun s l => block_reach s l _) _ s

theorem endShutDown_reach (s : State) (m : Manifold) : Reach [.channels] s (s.endShutDown m) :=
  Reach.foldl (fun s l => unblock_reach s l _) _ s

theorem actOnPresence_reach (s : State) (before : Conditions) (key : CondKey) : Reach faultFields s (s.actOnPresence before key) := by
  cases key with
  | loop c l => exact (handHold_reach s before l).trans (.ite ((conditionEnd_reach _ _).mono (by decide)) (.refl _ _))
  | manifold c m =>
    cases c with
    | flowShutdown => exact (shutDown_reach s m).mono (by decide)
    | _ => exact .refl _ s
  | room r => exact (raise_reach s _).mono (by decide)
  | part c =>
    cases c with
    | sourceSilent => exact ((raise_reach s _).mono (by decide)).trans ((correctForSource_reach _ _).mono (by decide))
    | _ => exact .refl _ s

theorem becomePresent_reach (s : State) (key : CondKey) : Reach faultFields s (s.becomePresent key) :=
  .ite (.refl _ s) (((conditionPresent_reach s key).mono (by decide)).trans (actOnPresence_reach _ _ key))

theorem becomeAbsent_reach (s : State) (key : CondKey) : Reach [.conds, .notices, .channels] s (s.becomeAbsent key) := by
  have ended := (conditionEnd_reach s key).mono (B := [.conds, .notices, .channels]) (by decide)
  refine .ite ?_ (.refl _ s)
  unfold State.actOnEnd
  split
  · exact ended.trans ((endShutDown_reach _ _).mono (by decide))
  · exact ended

theorem decideCondition_reach (s : State) (key : CondKey) (now : Bool) : Reach faultFields s (s.decideCondition key now) :=
  .ite (becomePresent_reach s key) ((becomeAbsent_reach s key).mono (by decide))

theorem expire_reach (s : State) (c : LoopClass) (l : LoopNo) : Reach faultFields s (s.expire c l) :=
  .ite (((retryExpire_reach s _).mono (by decide)).trans (handHold_reach _ _ l)) (.refl _ s)

theorem expireAll_reach (s : State) : Reach faultFields s s.expireAll :=
  Reach.foldl (fun s c => Reach.foldl (fun s l => expire_reach s c l) _ s) _ s

theorem clearRecord_reach (s : State) (key : CondKey) : Reach faultFields s (s.clearRecord key) := by
  unfold State.clearRecord
  dsimp only
  refine .ite (.refl _ s) (.ite ?_ ((delist_reach s key).mono (by decide)))
  refine Reach.trans (t := (s.setRecord key { s.record key with hold := .none, retrySlots := 0 }).delist key)
    (((setRecord_reach s key _).mono (by decide)).trans ((delist_reach _ key).mono (by decide))) ?_
  cases key with
  | loop c l => exact handHold_reach _ _ l
  | _ => exact .refl _ _

/-! ### Slot ends -/

/-- What the work of a slot end can reach. -/
abbrev slotFields : List Field := faultFields ++ [.sensors, .source, .store, .draws]

theorem takeReadings_reach (s : State) (codes : Codes) : Reach [.sensors] s (s.takeReadings codes) := by
  intro f hf; cases f <;> first | rfl | exact absurd (by decide) hf

theorem setResults_reach (s : State) : Reach [.sensors] s (s.setResults) := by
  intro f hf; cases f <;> first | rfl | exact absurd (by decide) hf

theorem countHeat_reach (s : State) : Reach [.balance] s (s.countHeat) := by
  intro f hf; cases f <;> first | rfl | exact absurd (by decide) hf

theorem growWatches_reach (s : State) : Reach [.watch] s (s.growWatches) := by
  intro f hf; cases f <;> first | rfl | exact absurd (by decide) hf

theorem disarmPassed_reach (s : State) : Reach [.watch] s (s.disarmPassed) := by
  intro f hf; cases f <;> first | rfl | exact absurd (by decide) hf

theorem sourceSlotEnd_reach (s : State) : Reach [.source] s (s.sourceSlotEnd) := by
  intro f hf; cases f <;> first | rfl | exact absurd (by decide) hf

theorem sourceSlotStart_reach (s : State) : Reach [.source] s (s.sourceSlotStart) := by
  intro f hf; cases f <;> first | rfl | exact absurd (by decide) hf

theorem readSlot_reach (s : State) (codes : Codes) : Reach [.sensors] s (s.readSlot codes) :=
  (takeReadings_reach s codes).trans (setResults_reach _)

theorem measured_reach (s : State) (l : LoopNo) (m : Measurement) (slots : Nat) :
    Reach [.balance, .store, .notices] s (s.measured l m slots) := by
  unfold State.measured
  dsimp only
  refine Reach.trans ?_ ((raiseIf_reach _ _ _).mono (by decide))
  exact .ite ((onBalance_reach s l _).mono (by decide))
    (((onBalance_reach s l _).mono (by decide)).trans ((onStore_reach _ _).mono (by decide)))

theorem advanceMeasurement_reach (s : State) (l : LoopNo) : Reach [.balance, .store, .notices] s (s.advanceMeasurement l) := by
  unfold State.advanceMeasurement
  split
  · exact .refl _ s
  · dsimp only
    exact .ite (.ite (measured_reach s l _ _) (.ite ((onBalance_reach s l _).mono (by decide)) ((onBalance_reach s l _).mono (by decide))))
      (.refl _ s)

theorem advanceMeasurements_reach (s : State) : Reach [.balance, .store, .notices] s s.advanceMeasurements :=
  Reach.foldl advanceMeasurement_reach _ s

theorem countSlot_reach (s : State) : Reach [.balance, .store, .notices, .watch, .source, .conds] s s.countSlot := by
  unfold State.countSlot
  refine Reach.trans ?_ ((growRetries_reach _).mono (by decide))
  refine Reach.trans ?_ ((sourceSlotEnd_reach _).mono (by decide))
  refine Reach.trans ?_ ((growWatches_reach _).mono (by decide))
  exact ((countHeat_reach s).mono (by decide)).trans ((advanceMeasurements_reach _).mono (by decide))

theorem applyChanges_reach (s : State) (changes : List (CondKey × Bool)) : Reach faultFields s (s.applyChanges changes) := by
  unfold State.applyChanges
  exact Reach.foldl (fun u (c : CondKey × Bool) => decideCondition_reach u c.1 c.2) _ s

theorem supervise_reach (s : State) : Reach faultFields s s.supervise := by
  unfold State.supervise
  dsimp only
  have start := (disarmPassed_reach s).mono (B := faultFields) (by decide)
  exact .ite ((start.trans (expireAll_reach _)).trans (applyChanges_reach _ _)) ((start.trans (applyChanges_reach _ _)).trans (expireAll_reach _))

theorem addSample_reach (was s : State) (l : LoopNo) : Reach [.balance] s (State.addSample was s l) := by
  unfold State.addSample
  split
  · exact .refl _ s
  · exact .ite (onBalance_reach s _ _) (.refl _ s)

theorem addSamples_reach (s was : State) : Reach [.balance] s (s.addSamples was) := Reach.foldl (addSample_reach was) _ s

theorem closeSlot_reach (s : State) : Reach slotFields s s.closeSlot := by
  unfold State.closeSlot
  dsimp only
  have work : Reach slotFields s (s.countSlot.supervise.addSamples s) :=
    (((countSlot_reach s).mono (by decide)).trans ((supervise_reach _).mono (by decide))).trans ((addSamples_reach _ s).mono (by decide))
  refine work.trans ?_
  intro f hf; cases f <;> first | rfl | exact absurd (by decide) hf

theorem slotEndWork_reach (s : State) (codes : Codes) : Reach slotFields s (s.slotEndWork codes) :=
  ((readSlot_reach s codes).mono (by decide)).trans (closeSlot_reach _)

theorem setFlowRequest_reach (s : State) (x : Nat) : Reach [.flowRequest, .notices] s (s.setFlowRequest x) := by
  unfold State.setFlowRequest
  refine Reach.trans ?_ ((raiseIf_reach _ _ _).mono (by decide))
  intro f hf; cases f <;> first | rfl | exact absurd (by decide) hf

theorem reclampFlow_reach (s : State) : Reach [.flowRequest, .notices] s s.reclampFlow := setFlowRequest_reach s _

theorem stepFlow_reach (s : State) : Reach [.flowRequest, .notices] s s.stepFlow := setFlowRequest_reach s _

/-- What a boundary within a frame can reach. -/
abbrev boundaryFields : List Field := slotFields ++ [.clock, .flowRequest, .supply]

theorem beginSlot_reach (s : State) : Reach boundaryFields s s.beginSlot := by
  unfold State.beginSlot
  exact (((sourceSlotStart_reach s).mono (by decide)).trans ((reclampFlow_reach _).mono (by decide))).trans
    ((startSlotChannels_reach _).mono (by decide))

theorem advanceSlot_reach (s : State) : Reach [.clock] s (s.advanceSlot) := by
  intro f hf; cases f <;> first | rfl | exact absurd (by decide) hf

/-- R21: a boundary within a frame leaves the ports, the rooms, the pins, the heat totals and the queue as they are. -/
theorem slotBoundary_reach (s : State) (codes : Codes) : Reach boundaryFields s (s.slotBoundary codes) := by
  unfold State.slotBoundary
  refine Reach.trans ?_ (beginSlot_reach _)
  refine Reach.trans ?_ ((advanceSlot_reach _).mono (by decide))
  exact ((slotEndWork_reach s codes).mono (by decide)).trans ((endSlotChannels_reach _).mono (by decide))

/-! ### Frame ends -/

/-- What a frame end or a plan reset can reach. -/
abbrev frameFields : List Field := boundaryFields ++ [.rooms, .heat]

theorem countIdle_reach (s : State) : Reach [.plans] s (s.countIdle) := by
  intro f hf; cases f <;> first | rfl | exact absurd (by decide) hf

theorem totalHeat_reach (s : State) : Reach [.rooms, .heat] s (s.totalHeat) := by
  intro f hf; cases f <;> first | rfl | exact absurd (by decide) hf

theorem newFrame_reach (s : State) : Reach [.clock] s (s.newFrame) := by
  intro f hf; cases f <;> first | rfl | exact absurd (by decide) hf

theorem applyModeChanges_reach (s : State) (before : Tab 24 LoopSettings) : Reach [.duty, .plans] s (s.applyModeChanges before) := by
  intro f hf; cases f <;> first | rfl | exact absurd (by decide) hf

theorem computeDuty_reach (s : State) : Reach [.duty] s (s.computeDuty) := by
  intro f hf; cases f <;> first | rfl | exact absurd (by decide) hf

theorem clearCarries_reach (s : State) : Reach [.duty] s (s.clearCarries) := by
  intro f hf; cases f <;> first | rfl | exact absurd (by decide) hf

theorem clearFrameMarks_reach (s : State) : Reach [.channels] s (s.clearFrameMarks) := by
  intro f hf; cases f <;> first | rfl | exact absurd (by decide) hf

theorem closeBalance_reach (s : State) : Reach [.balance, .store] s s.closeBalance := by
  have closed : Reach [.balance, .store] s { s with balance := s.closedBalance } := by
    intro f hf; cases f <;> first | rfl | exact absurd (by decide) hf
  exact .ite (closed.trans ((onStore_reach _ _).mono (by decide))) closed

theorem closeFrame_reach (s : State) : Reach frameFields s s.closeFrame :=
  (((closeBalance_reach s).mono (by decide)).trans ((totalHeat_reach _).mono (by decide))).trans ((countIdle_reach _).mono (by decide))

theorem dueAutosave_reach (s : State) : Reach [.store] s s.dueAutosave :=
  .ite (onStore_reach s _) ((onStore_reach s _).trans (onStore_reach _ _))

theorem checkAutosave_reach (s : State) : Reach [.store] s s.checkAutosave :=
  .ite ((onStore_reach s _).trans (dueAutosave_reach _)) (onStore_reach s _)

theorem frameAutosave_reach (s : State) : Reach [.store] s s.frameAutosave := by
  have counted {c : Prop} [Decidable c] : Reach [.store] s
      (if c then s.checkAutosave else s.onStore fun st => { st with autosaveCount := st.autosaveCount + 1 }) :=
    .ite (checkAutosave_reach s) (onStore_reach s _)
  exact .ite (counted.trans (dueAutosave_reach _)) counted

theorem adopt_reach (s : State) : Reach [.store, .notices] s s.adopt :=
  ((onStore_reach s _).mono (by decide)).trans ((raiseIf_reach _ _ _).mono (by decide))

theorem adoptChecks_reach (s : State) (l : LoopNo) : Reach faultFields s (s.adoptChecks l) := by
  unfold State.adoptChecks
  dsimp only
  have off (u : State) (g : Watch → Watch) (key : CondKey) : Reach faultFields u ((u.onWatch l g).becomeAbsent key) :=
    ((onWatch_reach u l g).mono (by decide)).trans ((becomeAbsent_reach _ key).mono (by decide))
  have closed {c : Prop} [Decidable c] (g : Watch → Watch) (key : CondKey) :
      Reach faultFields s (if c then s else (s.onWatch l g).becomeAbsent key) := .ite (.refl _ s) (off s g key)
  exact .ite (closed _ _) ((closed _ _).trans (off _ _ _))

theorem adoptFrame_reach (s : State) : Reach frameFields s s.adoptFrame := by
  unfold State.adoptFrame
  dsimp only
  refine Reach.trans ?_ ((Reach.foldl (A := periodFields) (fun s l => channelForHold_reach s l _) _ _).mono (by decide))
  refine Reach.trans ?_ ((frameAutosave_reach _).mono (by decide))
  refine Reach.trans ?_ ((Reach.foldl adoptChecks_reach _ _).mono (by decide))
  refine Reach.trans ?_ ((newFrame_reach _).mono (by decide))
  exact ((adopt_reach s).mono (by decide)).trans ((applyModeChanges_reach _ _).mono (by decide))

theorem ageRoom_reach (s : State) (r : Fin 16) : Reach (.rooms :: faultFields) s (s.ageRoom r) := by
  unfold State.ageRoom
  dsimp only
  have aged {c : Prop} [Decidable c] (g : Room → Room) : Reach (.rooms :: faultFields) s (if c then s.onRoom r g else s) :=
    .ite ((onRoom_reach s r g).mono (by decide)) (.refl _ s)
  exact (aged _).trans ((decideCondition_reach _ _ _).mono (by decide))

theorem ageRooms_reach (s : State) : Reach frameFields s s.ageRooms := (Reach.foldl ageRoom_reach _ s).mono (by decide)

theorem clearForReset_reach (s : State) : Reach frameFields s s.clearForReset := by
  unfold State.clearForReset
  dsimp only
  have cleared : Reach frameFields s s.resetChannels.clearCarries :=
    ((resetChannels_reach s).mono (by decide)).trans ((clearCarries_reach _).mono (by decide))
  refine cleared.trans ?_
  generalize s.resetChannels.clearCarries = u
  intro f hf; cases f <;> first | rfl | exact absurd (by decide) hf

theorem beginFrame_reach (s : State) (cont : Tab 24 Bool) : Reach frameFields s (s.beginFrame cont) := by
  unfold State.beginFrame
  dsimp only
  refine Reach.trans ?_ ((startSlotChannels_reach _).mono (by decide))
  have placed : Reach frameFields s (s.clearFrameMarks.place cont false).frameChannels :=
    (((clearFrameMarks_reach s).mono (by decide)).trans ((place_reach _ cont false).mono (by decide))).trans
      ((frameChannels_reach _).mono (by decide))
  refine placed.trans ?_
  generalize (s.clearFrameMarks.place cont false).frameChannels = u
  intro f hf; cases f <;> first | rfl | exact absurd (by decide) hf

theorem silenceSource_reach (s : State) : Reach faultFields s s.silenceSource :=
  .ite (((putRecord_reach s _ _).mono (by decide)).trans (actOnPresence_reach _ _ _)) (.refl _ s)

theorem listSilence_reach (s was : State) : Reach [.faults, .notices] s (s.listSilence was) :=
  .ite (enlistAsOf_reach s was _) (.refl _ s)

theorem openFrame_reach (s : State) : Reach frameFields s s.openFrame :=
  (((((((silenceSource_reach s).mono (by decide)).trans ((endLastSlotChannels_reach _).mono (by decide))).trans (closeFrame_reach _)).trans
    (adoptFrame_reach _)).trans (ageRooms_reach _)).trans ((listSilence_reach _ s).mono (by decide))).trans
      ((sourceSlotStart_reach _).mono (by decide))

theorem frameBoundary_reach (s : State) : Reach frameFields s s.frameBoundary := by
  unfold State.frameBoundary
  dsimp only
  refine Reach.trans ?_ (beginFrame_reach _ _)
  refine Reach.trans ?_ ((stepFlow_reach _).mono (by decide))
  refine Reach.trans ?_ ((computeDuty_reach _).mono (by decide))
  exact .ite ((openFrame_reach s).trans (clearForReset_reach _)) (openFrame_reach s)

/-- R21, R22: a frame end leaves the ports, the pins, a RESTART that waits and the queue as they are. -/
theorem frameEnd_reach (s : State) (codes : Codes) : Reach frameFields s (s.frameEnd codes) :=
  ((slotEndWork_reach s codes).mono (by decide)).trans (frameBoundary_reach _)

/-- R91: a plan reset leaves the same. -/
theorem planReset_reach (s : State) (codes : Codes) : Reach frameFields s (s.planReset codes) := by
  unfold State.planReset
  dsimp only
  refine Reach.trans ?_ (beginFrame_reach _ _)
  refine Reach.trans ?_ ((reclampFlow_reach _).mono (by decide))
  refine Reach.trans ?_ ((computeDuty_reach _).mono (by decide))
  refine Reach.trans ?_ (clearForReset_reach _)
  exact (((slotEndWork_reach s codes).mono (by decide)).trans ((newFrame_reach _).mono (by decide))).trans
    ((sourceSlotStart_reach _).mono (by decide))

theorem dueBoundary_reach (s : State) (codes : Codes) : Reach frameFields s (s.dueBoundary codes) :=
  .ite (frameEnd_reach s codes) (.ite (planReset_reach s codes) ((slotBoundary_reach s codes).mono (by decide)))

/-! ### The supply, the store and the rest -/

theorem loseSupply_reach (s : State) : Reach (.supply :: faultFields) s s.loseSupply := by
  unfold State.loseSupply
  dsimp only
  refine Reach.trans ?_ ((becomePresent_reach _ _).mono (by decide))
  refine Reach.trans (t := { s with supply := { s.supply with low := true } }) ?_
    ((Reach.foldl (A := periodFields) (fun s l => block_reach s l _) _ _).mono (by decide))
  intro f hf; cases f <;> first | rfl | exact absurd (by decide) hf

theorem regainSupply_reach (s : State) : Reach [.supply, .conds, .notices, .channels] s s.regainSupply := by
  unfold State.regainSupply
  dsimp only
  refine Reach.trans ?_ ((Reach.foldl (A := [.channels]) (fun s l => unblock_reach s l _) _ _).mono (by decide))
  refine Reach.trans (t := { s with supply := { s.supply with low := false } }) ?_ ((becomeAbsent_reach _ _).mono (by decide))
  intro f hf; cases f <;> first | rfl | exact absurd (by decide) hf

theorem startSave_reach (s : State) (kind : SaveKind) : Reach [.store] s (s.startSave kind) := onStore_reach s _

theorem completeSave_reach (s : State) (agrees : Bool) : Reach [.store, .conds, .notices, .channels] s (s.completeSave agrees) := by
  unfold State.completeSave
  split
  · exact .refl _ s
  · dsimp only
    refine Reach.trans ?_ ((raise_reach _ _).mono (by decide))
    exact .ite (((onStore_reach s _).mono (by decide)).trans ((becomeAbsent_reach _ _).mono (by decide)))
      ((onStore_reach s _).mono (by decide))

theorem takePost_reach (s : State) (p : SourcePost) : Reach (.source :: .conds :: .channels :: planFields) s (s.takePost p) := by
  unfold State.takePost
  refine Reach.trans ?_ ((correctForSource_reach _ _).mono (by decide))
  refine Reach.trans (t := { s with source := s.source.post p }) ?_ ((becomeAbsent_reach _ _).mono (by decide))
  intro f hf; cases f <;> first | rfl | exact absurd (by decide) hf

theorem postRoom_reach (s : State) (room demand : Nat) : Reach [.rooms, .conds, .notices, .channels] s (s.postRoom room demand) := by
  unfold State.postRoom
  split
  · exact ((onRoom_reach s _ _).mono (by decide)).trans ((becomeAbsent_reach _ _).mono (by decide))
  · exact .refl _ s

theorem clearCaptures_reach (s : State) (loops : List LoopNo) : Reach [.balance] s (s.clearCaptures loops) :=
  Reach.foldl (fun s l => onBalance_reach s l _) _ s

theorem relearnLoops_reach (s : State) (loops : List LoopNo) : Reach [.balance, .store] s (s.relearnLoops loops) :=
  ((Reach.foldl (A := [.balance]) (fun s l => onBalance_reach s l _) _ s).mono (by decide)).trans ((onStore_reach _ _).mono (by decide))

end Sys2Proof.Machine
end

