-- ==== Sys2Proof/Tests/Slice0.lean ====
section
/-! SUPPORT. The model's own tests: ill-formed commands refused, the spec's worked numbers, one or two steps of each command on small states, and a
witness for the hypotheses of every statement that has some. Expected values come from the spec's tables and worked examples; each test names its rule. -/

-- One theorem at a time: a thread that waits for the kernel holds its stack.
set_option Elab.async false

namespace Sys2Proof.Tests

open Sys2Proof Sys2Proof.Machine

/-! ### Helpers -/

/-- The state that a command leaves. -/
def after (c : Instr) (s : State) : State :=
  match exec c s with
  | .next t => t
  | _ => s

/-- The status of the reply at a port. -/
def status (s : State) (m : Master) : Option Status := (s.ports.get m).reply.map Reply.status

/-- The reset state with the settings in force and staged changed. -/
def withSettings (f : Settings → Settings) : State :=
  State.reset.onStore fun st => { st with staged := f st.staged, inForce := f st.inForce }

/-- The reset state with a loop in RUN at a weight. -/
def withRun (l : LoopNo) (weight : Nat) : State :=
  withSettings fun x => { x with loops := x.loops.modify l fun y => { y with mode := .run, weight := weight } }

/-- A pair 0, 1 with loop 1 in FOLLOW. -/
def withPair : State :=
  withSettings fun x => { x with loops := (x.loops.modify 0 fun y => { y with mode := .run }).modify 1 fun y => { y with mode := .follow } }

/-- A loop's channel driven in BOOST by a run over slots 0..10. -/
def driven (s : State) (l : LoopNo) : State :=
  (s.onRun l fun _ => ⟨.ordinary, 0, 10, false, 1, .asPlaced, 11, false, 0⟩).startChannel l .boost

/-- The reset state with the response of a class in force. -/
def withResponse (cls : Fin 12) (r : FaultResponse) (s : State) : State :=
  s.onStore fun st => { st with inForce := { st.inForce with responses := st.inForce.responses.set cls r } }

/-- The reset state in another slot. -/
def atSlot (t : Fin 48) : State := { State.reset with clock := ⟨t, 7, false⟩ }

/-- Codes of a slot: every channel at one code. -/
def codes (c : BitVec 12) : Codes := .fill 26 c

/-! ### WellFormed: each check refuses an ill-formed term -/

theorem test_wf_unknown_kind : (Instr.unknownKind .room 1 []).wellFormed = false := by decide
theorem test_wf_unknown_kind_high : (Instr.unknownKind .room 17 []).wellFormed = true := by decide
theorem test_wf_payload : (Instr.readTable .room (List.replicate 49 0)).wellFormed = false := by decide
theorem test_wf_record : (Instr.writeGeneral .service 0 (List.replicate 47 0)).wellFormed = false := by decide
theorem test_wf_settings_other : (Instr.writeSettingsOther .service [13, 0, 1]).wellFormed = false := by decide
theorem test_wf_settings_other_ok : (Instr.writeSettingsOther .service [3, 0, 1]).wellFormed = true := by decide
theorem test_wf_clear_faults : (Instr.clearFaults .service [0]).wellFormed = false := by decide
theorem test_wf_clear_capture : (Instr.clearCapture .service [0]).wellFormed = false := by decide
theorem test_wf_inrush : (Instr.inrushLimit 0 400 100).wellFormed = false := by decide
theorem test_wf_overcurrent : (Instr.overcurrentDetected 0 900 0).wellFormed = false := by decide
theorem test_wf_open_load : (Instr.openLoadDetected 0 3 0).wellFormed = false := by decide
theorem test_wf_recovered : (Instr.openLoadRecovered 0 30 0).wellFormed = false := by decide
theorem test_wf_follower : (Instr.followerFaultRelease 4).wellFormed = false := by decide
theorem test_wf_supply_falls : (Instr.supplyFallsLow 19500).wellFormed = false := by decide
theorem test_wf_supply_returns : (Instr.supplyReturns 21000).wellFormed = false := by decide

/-! ### The spec's numbers -/

/-- R155: the check of "123456789". -/
theorem test_crc : crc [0x31, 0x32, 0x33, 0x34, 0x35, 0x36, 0x37, 0x38, 0x39] = 0x29B1 := by decide +kernel

/-- R58: the rows of its table. -/
theorem test_request : [(100, 256), (100, 1024), (100, 64), (60, 256), (2, 256), (1, 256), (0, 256)].map (fun p => unclampedRequest p.1 p.2)
    = [48, 192, 12, 29, 1, 0, 0] := by decide

/-- R42: a code on a point gives the point (T8 of the defaults is 380). -/
theorem test_convert_point : convert defaultConversion 2048 = 380 := by decide +kernel

/-- R41: the edges of the valid codes. -/
theorem test_valid_codes : [31, 32, 4063, 4064].map (fun c : BitVec 12 => validCode c) = [false, true, true, false] := by decide +kernel

/-- R105: stage 1 takes a spread below 5 as 5, stage 4 limits the step to 32, stage 5 the factor to 1024. -/
theorem test_factor_limits : updatedFactor 1020 3 3 50 8 = 1024 ∧ updatedFactor 256 3 3 50 2 = 288 := by decide

/-- R5: the six rows of the mode table, even loop then odd loop. -/
theorem test_modes :
    ([(.off, .off), (.off, .run), (.off, .follow), (.run, .off), (.run, .run), (.run, .follow)] : List (LoopMode × LoopMode)).map (fun p =>
      let loops := ((Tab.fill 24 defaultLoop).modify 2 fun x => { x with mode := p.1 }).modify 3 fun x => { x with mode := p.2 };
      (effMode loops 2, effMode loops 3))
    = [(.off, .off), (.off, .single), (.off, .off), (.single, .off), (.single, .single), (.leader, .following)] := by decide +kernel

/-- R37: a full reset of a part with an invalid image and a normal supply gives the reset state. -/
theorem test_full_reset : after (.fullReset 24000) State.reset = State.reset := by decide +kernel

/-! ### The ports -/

/-- R154, R155: TAKE MAIL sent as a frame by ROOM, its reply EMPTY. -/
theorem test_frame : status (after (.receiveGapElapsed .room)
    ((requestFrame 5 []).foldl (fun s b => after (.byteReceived .room b true) s) State.reset)) .room = some .empty := by decide +kernel

/-- R154: a bad stop bit makes a frame malformed; it is dropped. -/
theorem test_bad_stop : ((after (.receiveGapElapsed .room)
    ((requestFrame 5 []).foldl (fun s b => after (.byteReceived .room b (b != 0)) s) State.reset)).ports.get .room).state = .idle := by
  decide +kernel

/-- R157: the end of a reply frees the port; R36: the end of RESTART's reply takes the part into reset. -/
theorem test_reply_sent : (after (.replySent .service) (after (.restart .service []) State.reset)).mode = .held := by decide +kernel

/-- R156: an unknown kind. -/
theorem test_unknown : status (after (.unknownKind .room 200 []) State.reset) .room = some .badKind := by decide +kernel

/-- R158: PINS has 6 records of 8 bytes; 5 of them fit. -/
theorem test_read_pins : ((after (.readTable .room [3, 0, 0, 6]) State.reset).ports.get .room).reply.map (fun r => r.payload.take 2)
    = some [0, 5] := by decide +kernel

/-- R158: FAULTS may be read from the index past its last entry: one entry stands, STORE_INVALID. -/
theorem test_read_faults : ((after (.readTable .service [9, 0, 1, 4]) State.reset).ports.get .service).reply.map Reply.payload
    = some [1, 0, 0, 1] := by decide +kernel

/-- R163: ENABLE NOTICES with the set 0x0001 leaves FRAME alone enabled; the upper bits are not read. -/
theorem test_enable : ((after (.enableNotices .room [0xF0, 0x01]) State.reset).notices.get .room).enabled = 1 := by decide +kernel

/-- R163: ACK NOTICES of every kind leaves MAIL. -/
theorem test_ack : ((after (.ackNotices .room [0xFF, 0xFF])
    (State.reset.setNotices .room ⟨0xFFF, 0, []⟩)).notices.get .room).pending = 0x800 := by decide +kernel

/-- R165: a third message finds the queue full. -/
theorem test_mail_full : status (after (.postMail .source [0, 1, 2])
    (State.reset.setNotices .room ⟨0x800, 0, [⟨.service, [1]⟩, ⟨.service, [2]⟩]⟩)) .source = some .full := by decide +kernel

/-- R165, R166: a message posted is returned with its sender's code, and MAIL leaves with it. -/
theorem test_mail_taken :
    (let s := after (.takeMail .service []) (after (.postMail .room [2, 0x12, 0x34]) State.reset);
      ((s.ports.get .service).reply.map Reply.payload, (s.notices.get .service).pending)) = (some [0, 0x12, 0x34], 0x400) := by decide +kernel

/-! ### Rooms, pins, source -/

/-- R53: a demand of 110 % is taken as 100 %, and the room is FRESH. -/
theorem test_demand :
    (let s := after (.postDemand .room [6, 110]) State.reset;
      (s.rooms.get 6, status s .room)) = (⟨100, .fresh, 0, 0⟩, some .clamped) := by decide +kernel

/-- R52: one pair above room 15 refuses them all. -/
theorem test_demand_refused : (after (.postDemand .room [6, 70, 16, 70]) State.reset).rooms = State.reset.rooms := by decide +kernel

/-- R14: with one RUN leader, a pin on it would leave none unpinned. -/
theorem test_pin_last : status (after (.setPin .room [0, 0, 4, 2]) (withRun 2 10)) .room = some .noRoom := by decide +kernel

/-- R15: a length past slot 47 ends there. -/
theorem test_pin_length :
    (let s := after (.setPin .room [3, 46, 9, 2])
        ((withRun 2 10).onStore fun st => { st with inForce := { st.inForce with loops := st.inForce.loops.modify 5 fun y => { y with mode := .run } } });
      (s.pins.get 3, status s .room)) = (⟨true, [2], 46, 2⟩, some .clamped) := by decide +kernel

/-- R16: a dropped pin is FREE. -/
theorem test_drop : (after (.dropPin .room [3]) { State.reset with pins := State.reset.pins.set 3 ⟨true, [2], 46, 2⟩ }).pins.get 3 = freePin := by
  decide +kernel

/-- R128: a floor above the ceiling becomes the ceiling, and is CLAMPED. -/
theorem test_post_source :
    (let s := after (.postSource .source [1, 6, 1, 0xF4, 2, 0xEE]) (atSlot 47);
      (s.source.posted, s.source.ceiling, s.source.floor, status s .source)) = (some .heat, 500, 500, some .clamped) := by decide +kernel

/-! ### Settings and saves -/

/-- HEAT in force with a ceiling of 60 fu, and loop 2 of weight 100 in a run over slots 0..10. -/
def heatingAt60 : State :=
  let s := driven (withRun 2 100) 2
  ({ s with source := { s.source with posted := some .heat, ceiling := 60 } } : State).sourceSlotStart

/-- R134, R90: a second post of the slot that brings back the values in force makes no correction; a lower ceiling trims, also where it is lower than the
first post's alone. -/
theorem test_second_post :
    (let post (high low : Byte) (s : State) : State := { after (.postSource .source [1, 2, high, low]) s with ports := s.ports };
      [post 1 0xF4 heatingAt60, post 0 60 (post 1 0xF4 heatingAt60), post 0 50 heatingAt60, post 0 70 (post 1 0xF4 heatingAt60)].map
        fun s => ((s.run 2).last, (s.run 2).endCause))
      = [(10, .asPlaced), (10, .asPlaced), (0, .trimmed), (0, .trimmed)] := by decide +kernel

/-- R24: the default record is staged as it is. -/
theorem test_general : status (after (.writeGeneral .service 0 defaultGeneral.bytes) State.reset) .service = some .ok := by decide +kernel

/-- R24: a hold duty of 75 is staged as 70; warn 600 raises shutdown 550 to 610. -/
theorem test_general_clamps :
    (let g := (after (.writeGeneral .service 0 (General.bytes { defaultGeneral with holdDuty := 75, flowWarn := 600 })) State.reset).store.staged.general;
      (g.holdDuty, g.flowWarn, g.flowShutdown)) = (70, 600, 610) := by decide +kernel

/-- R160, R24: a flow warn threshold of 0xFFF6 is -1.0 degrees and is staged as 30.0; 0x7FFF is staged as 60.0. -/
theorem test_general_signed :
    ([0xFFF6, 0x7FFF].map fun w =>
        (after (.writeGeneral .service 0 (General.bytes { defaultGeneral with flowWarn := w })) State.reset).store.staged.general.flowWarn)
      = [300, 600] := by decide +kernel

/-- R160, R128: a posted flow minimum of 0x8000 is taken as 20.0 degrees, with CLAMPED. -/
theorem test_post_signed :
    (let s := after (.postSource .source [1, 16, 0x80, 0]) State.reset;
      (s.source.flowMin, status s .source)) = (200, some .clamped) := by decide +kernel

/-- R2: FOLLOW on an even loop is staged as RUN. -/
theorem test_write_loop :
    (let s := after (.writeLoopSettings .service 4 [2, 0, 50, 0, 1, 1, 1]) State.reset;
      ((s.store.staged.loops.get 4).mode, (s.store.staged.loops.get 4).weight, status s .service)) = (.run, 1, some .clamped) := by decide +kernel

/-- R10: the list is stored ascending. -/
theorem test_write_room :
    (after (.writeRooms .service 6 [2, 10, 9, 77, 77, 25]) State.reset).store.staged.rooms.get 6 = ⟨[9, 10], 25⟩ := by decide +kernel

/-- R10: a loop of another staged list conflicts. -/
theorem test_write_room_conflict : status (after (.writeRooms .service 7 [1, 9, 0, 0, 0, 25])
    (withSettings fun x => { x with rooms := x.rooms.set 6 ⟨[9, 10], 25⟩ })) .service = some .conflict := by decide +kernel

/-- R43: the default points are staged as written. -/
theorem test_write_conversion : status (after (.writeConversion .service 0 (conversionBytes defaultConversion)) State.reset) .service = some .ok := by
  decide +kernel

/-- R162: the set 5 is ROOM and SERVICE. -/
theorem test_write_route : (after (.writeRoutes .service 0 [5]) State.reset).store.staged.routes.get 0 = ⟨true, false, true⟩ := by decide +kernel

/-- R141: DRIVE_OVERCURRENT written as REPORT is staged as LATCH; RETURN_SENSOR written as RETRY with NONE is staged as RETRY with PLANNED. -/
theorem test_write_response :
    (let s := after (.writeFaultResponses .service 0 [2, 0]) State.reset;
      let t := after (.writeFaultResponses .service 4 [1, 3]) State.reset;
      (s.store.staged.responses.get 0, t.store.staged.responses.get 4)) = (⟨.latch, .closed⟩, ⟨.retry, .planned⟩) := by decide +kernel

/-- R159, step 3: PINS is written by none. -/
theorem test_write_other : status (after (.writeSettingsOther .service [3, 0]) State.reset) .service = some .notOwner := by decide +kernel

/-- R32: a save in progress answers BUSY. -/
theorem test_save_busy :
    status ((after (.saveSettings .service []) ((State.reset.startSave .manual)))) .service = some .busy := by decide +kernel

/-- R32, R149: a save that agrees writes the completion mark and ends STORE_INVALID. -/
theorem test_save_ok :
    (let s := after (.saveComplete true) (State.reset.startSave .manual);
      (s.store.image.completionMark, s.present (.part .storeInvalid), s.store.lastResult, s.store.save.isNone)) = (true, false, .ok, true) := by decide +kernel

/-- R32: a save that differs is FAILED, and sets the learned-changed flag. -/
theorem test_save_failed :
    (let s := after (.saveComplete false) (State.reset.startSave .manual);
      (s.store.image.completionMark, s.store.learnedChanged, s.store.lastResult)) = (false, true, .failed) := by decide +kernel

/-- R35, worked example "a manual save that meets an autosave", steps 2 and 4: postponed by the frame end of the check, started by one after the save. -/
theorem test_autosave :
    (let s := ((State.reset.startSave .manual).onStore fun st => { st with learnedChanged := true, autosaveCount := 89 }).frameAutosave;
      let t := (after (.saveComplete true) s).frameAutosave;
      (s.store.autosaveCount, s.store.autosavePostponed, t.store.autosavePostponed, t.store.save.map Save.kind))
      = (0, true, false, some .auto) := by decide +kernel

/-- R35: a check, and a postponed autosave, wait for a frame end. -/
theorem test_autosave_early :
    (let s := (atSlot 46).onStore fun st => { st with learnedChanged := true, autosaveCount := 89, autosavePostponed := true };
      ((after .autosaveCheck s).store.autosaveCount, (after .postponedAutosave s).store.autosavePostponed)) = (89, true) := by decide +kernel

/-! ### Clears and relearn -/

/-- R151: the entry of a present condition stays: STILL_ACTIVE. -/
theorem test_clear_active :
    (let s := after (.clearFaults .service [1, 11, 0]) State.reset;
      (status s .service, s.faults.entries.length)) = (some .stillActive, 1) := by decide +kernel

/-- R151: ALL removes a PAST entry and clears OVERFLOW. -/
theorem test_clear_all :
    (let s := after (.clearFaultsAll .service) { State.reset with conds := freshConditions, faults := ⟨[storeInvalidEntry], true⟩ };
      (status s .service, s.faults)) = (some .ok, ⟨[], false⟩) := by decide +kernel

/-- R102: a named record is emptied. -/
theorem test_clear_capture : ((after (.clearCapture .service [1, 4])
    (State.reset.onBalance 4 fun b => { b with capture := ⟨true, 3, 1, 2, 250⟩ })).balance.get 4).capture.full = false := by decide +kernel

/-- R102: ALL empties every record. -/
theorem test_clear_capture_all : ((after (.clearCaptureAll .service)
    (State.reset.onBalance 23 fun b => { b with capture := ⟨true, 3, 1, 2, 250⟩ })).balance.get 23).capture.full = false := by decide +kernel

/-- R20: RELEARN puts k at 256 and D at 2. -/
theorem test_relearn :
    (let b := (after (.relearn .service [5]) (State.reset.onBalance 5 fun b => { b with factor := 300, deadTime := 7, sum := 90 })).balance.get 5;
      (b.factor, b.deadTime, b.sum, b.relearned)) = (256, 2, 0, true) := by decide +kernel

/-- R22: RESET PLAN waits. -/
theorem test_reset_plan : (after (.resetPlan .service []) State.reset).clock = ⟨0, 0, true⟩ := by decide +kernel

/-- R36: the reset hold de-energises a driven channel. -/
theorem test_reset_hold : (after .resetHold (driven (withRun 2 10) 2)).energised 2 = false := by decide +kernel

/-! ### Sensors, balance and the supervisor -/

/-- R46: three invalid readings are a fault, two are not. -/
theorem test_sensor_fault :
    [2, 3].map (fun n => (after (.sensorFaultPresent 24)
      { State.reset with sensors := State.reset.sensors.modify 24 fun x => { x with invalidRun := n } }).present (.manifold .flowSensor .a))
      = [false, true] := by decide +kernel

/-- R46: three valid readings end it. -/
theorem test_sensor_ends : (after (.sensorFaultEnds 25)
    ({ State.reset with sensors := State.reset.sensors.modify 25 fun x => { x with validRun := 3 } }.setRecord (.manifold .flowSensor .b)
      ⟨true, .none, .none, 0⟩)).present (.manifold .flowSensor .b) = false := by decide +kernel

/-- R100: a measurement at 12 slots ends, D as it was. -/
theorem test_dead_time_timeout :
    (let b := (after (.deadTimeTimeout 3) (State.reset.onBalance 3 fun b => { b with measurement := some ⟨250, 12, 0, 0⟩ })).balance.get 3;
      (b.measurement, b.deadTime)) = (none, 2) := by decide +kernel

/-- R146: a stuck loop under REPORT is listed and runs on. -/
theorem test_stuck_closed :
    (let s := after (.stuckClosedWindow 2) ((driven (withRun 2 10) 2).onWatch 2 fun w => { w with check := some ⟨255, 390, 9⟩ });
      (s.present (.loop .stuckClosed 2), s.energised 2, s.faults.entries.length)) = (true, true, 2) := by decide +kernel

/-- R146, R122: under LATCH with CLOSED its channel is BLOCKED and its period ends, so the condition is absent and the entry HELD. -/
theorem test_stuck_closed_latch :
    (let s := after (.stuckClosedWindow 2)
        (withResponse 2 ⟨.latch, .closed⟩ ((driven (withRun 2 10) 2).onWatch 2 fun w => { w with check := some ⟨255, 390, 9⟩ }));
      ((s.channels.get 2).state, s.present (.loop .stuckClosed 2), (s.record (.loop .stuckClosed 2)).entryState)) = (.blocked, false, .held) := by
  decide +kernel

/-- R147: a stuck-open count at the window. -/
theorem test_stuck_open : (after (.stuckOpenWindow 7) (State.reset.onWatch 7 fun w => { w with openCount := 9 })).present (.loop .stuckOpen 7) = true := by
  decide +kernel

/-- R131: an age at the timeout makes SOURCE_SILENT present. -/
theorem test_source_timeout : (after .sourceTimeout { atSlot 47 with source := { resetSource with age := 6 } }).present (.part .sourceSilent) = true := by
  decide +kernel

/-- R136: a settle that has run its count ends. -/
theorem test_settle_end : (after .settleEnd { State.reset with source := { resetSource with settling := true, settled := 3 } }).source.settling = false := by
  decide +kernel

/-- R144: a RETRY hold at the retry time is released where its condition is absent. -/
theorem test_retry : ((after (.retryExpiry .stuckClosed 17)
    ((atSlot 47).setRecord (.loop .stuckClosed 17) ⟨false, .retry, .closed, 48⟩)).record (.loop .stuckClosed 17)).hold = .none := by decide +kernel

/-- R54: worked example "a room falls silent": at age 4 the room is STALE. -/
theorem test_room_timeout :
    (let s := after (.roomDemandTimeout 6)
        { (withSettings fun x => { x with rooms := x.rooms.set 6 ⟨[9, 10], 25⟩ }) with rooms := State.reset.rooms.set 6 ⟨70, .fresh, 4, 0⟩ };
      ((s.rooms.get 6).state, s.present (.room 6))) = (.stale, true) := by decide +kernel

/-! ### The channels -/

/-- R118: with a budget of 2, the two lowest of three PENDING loops start. -/
theorem test_arbiter :
    (let s := [2, 4, 6].foldl (fun s l => s.setChannelState l .pending .restart) State.reset;
      [2, 4, 6].map fun l => ((after .pendingStartServed s).channels.get l).state) = [.boost, .boost, .pending] := by decide +kernel

/-- R114: at the boost time of 60 s, drive period 600, the channel enters HOLD with 60 ms on. -/
theorem test_drive_period :
    (let c := (after (.drivePeriodEnd 2) ((driven State.reset 2).onChannel 2 fun c => { c with boostElapsed := 599 })).channels.get 2;
      (c.state, c.phase, c.boostElapsed, c.onTime)) = (.hold, .hold, 600, 60) := by decide +kernel

/-- R114: BOOST_TIME_ELAPSED short of the boost time changes nothing. -/
theorem test_boost_time : ((after (.boostTimeElapsed 2) ((driven State.reset 2).onChannel 2 fun c => { c with boostElapsed := 599 })).channels.get 2).phase
    = .boost := by decide +kernel

/-- R115: a current above the limit, begun 20 ms into the period, cuts it at 21 ms and counts it. -/
theorem test_inrush :
    (let c := (after (.inrushLimit 2 351 20) (driven State.reset 2)).channels.get 2;
      (c.limited, c.onTime, c.phase)) = (1, 21, .boost) := by decide +kernel

/-- R116, R122: 6 ms above the threshold exceed the overcurrent time of 5 ms: the default response closes the loop. -/
theorem test_overcurrent :
    (let s := after (.overcurrentDetected 2 801 6) (driven (withRun 2 10) 2);
      ((s.channels.get 2).state, s.energised 2, (s.record (.loop .driveOvercurrent 2)).hold)) = (.blocked, false, .latch) := by decide +kernel

/-- R116: 5 ms do not exceed it. -/
theorem test_overcurrent_short : (after (.overcurrentDetected 2 801 5) (driven (withRun 2 10) 2)).energised 2 = true := by decide +kernel

/-- R117: 2001 ms below the threshold are DRIVE_OPEN, and 2000 ms at it end it. -/
theorem test_open_load :
    (let s := after (.openLoadDetected 2 14 2001) (driven (withRun 2 10) 2);
      let t := after (.openLoadRecovered 2 15 2000) s;
      (s.present (.loop .driveOpen 2), t.present (.loop .driveOpen 2))) = (true, false) := by decide +kernel

/-- R125: a follower whose FAULT cause has outlived its hold is released to IDLE. -/
theorem test_follower_release :
    ((after (.followerFaultRelease 1) (withPair.onChannel 1 fun c => { c with state := .blocked, causes := ⟨true, false, false⟩ })).channels.get 1).state
      = .idle := by decide +kernel

/-- R120: the supply below 19.5 V blocks a driven channel. -/
theorem test_supply_falls :
    (let s := after (.supplyFallsLow 19499) (driven (withRun 2 10) 2);
      ((s.channels.get 2).state, s.energised 2, s.present (.part .supplyLow))) = (.blocked, false, true) := by decide +kernel

/-- R121: its return leaves the channel of a running run waiting to RESTART. -/
theorem test_supply_returns :
    (let s := after (.supplyReturns 21001) (after (.supplyFallsLow 19499) (driven (withRun 2 10) 2));
      ((s.channels.get 2).state, (s.channels.get 2).pendingFor, (s.channels.get 4).state)) = (.pending, .restart, .idle) := by decide +kernel

/-! ### The boundaries -/

/-- R21, R44: a slot end advances the slot and takes the readings. -/
theorem test_slot_end :
    (let s := after (.slotEnd (codes 2048)) State.reset;
      (s.clock.slot, (s.sensors.get 25).lastValid, s.source.age)) = (1, some 380, 1) := by decide +kernel

/-- R21: within a frame no frame ends. -/
theorem test_frame_end_early : after (.frameEnd (codes 2048)) (atSlot 46) = atSlot 46 := by decide +kernel

/-- R91: without a RESET PLAN no plan reset is carried out. -/
theorem test_plan_reset_idle : after (.planResetBoundary (codes 2048)) State.reset = State.reset := by decide +kernel

/-- R22, R27, R28: a frame that closes with a staged change begins the next with the change in force, and ADOPTED raised by its route. -/
theorem test_adoption :
    (let s := ((atSlot 47).stage fun x => { x with general := { x.general with slotLength := 30 } }).adopt.newFrame;
      (s.clock, s.general.slotLength, (s.notices.get .service).pending)) = (⟨0, 8, false⟩, 30, 0x500) := by decide +kernel

/-- R55, R54: the ageing of worked example "a room falls silent", frames 201 to 204. -/
theorem test_ageing :
    (let s := { (withSettings fun x => { x with rooms := x.rooms.set 6 ⟨[9, 10], 25⟩ }) with rooms := State.reset.rooms.set 6 ⟨70, .fresh, 0, 0⟩ };
      let aged (n : Nat) := (List.range n).foldl (fun s _ => s.ageRoom 6) s;
      [1, 3, 4, 5].map fun n => (((aged n).rooms.get 6).age, ((aged n).rooms.get 6).state)) = [(1, .fresh), (3, .fresh), (4, .stale), (5, .stale)] := by
  decide +kernel

/-- R150, R143: a room and the source fall silent at one frame end: the room's record is listed first, in the frame that begins, and the source's after it,
in the slot that ends. -/
theorem test_silent_order :
    (let s := withSettings fun x => { x with rooms := x.rooms.set 6 ⟨[9], 25⟩ };
      let t := ({ s with clock := ⟨47, 7, false⟩, rooms := s.rooms.set 6 ⟨70, .fresh, 3, 0⟩, source := { s.source with age := 6 } } : State).openFrame;
      (t.faults.entries, t.source.view)) =
      ([storeInvalidEntry, ⟨.room 6, 8, 0, 8, 1⟩, ⟨.part .sourceSilent, 7, 47, 7, 1⟩], .fallback) := by decide +kernel

/-- A step on an empty queue idles. -/
theorem test_idle : step State.reset = .next State.reset := rfl

/-! ### Witnesses: a state and operands that meet the hypotheses of each statement, clause by clause, at the edges of their ranges -/

/-- A port that holds some bytes in a state. -/
def portAt (m : Master) (st : PortState) (buffer : List Byte) (bad : Bool) : State := State.reset.setPort m ⟨st, buffer, bad, none⟩

/-- ROOM holds one message, SOURCE two. -/
def mailed : State :=
  (State.reset.setNotices .room ⟨0xC00, 0xFFF, [⟨.service, [1]⟩]⟩).setNotices .source ⟨0x800, 0, [⟨.room, [1, 2, 3, 4]⟩, ⟨.service, [2]⟩]⟩

theorem witness_StepKeepsMail : mailed.mailSound ∧ ∃ t, step (mailed.withPending [.takeMail .room []]) = .next t := by
  refine ⟨fun m => ?_, _, rfl⟩
  cases m <;> (unfold Notices.sound; decide +kernel)

theorem witness_StepKeepsLearnedValues :
    (State.reset.onBalance 3 fun b => { b with factor := 1024, deadTime := 12, deadSlots := 12, measurement := some ⟨250, 11, 0, 0⟩ }).learnedSound := by
  intro l
  unfold State.onBalance
  dsimp only
  rw [Tab.get_modify]
  split
  · exact ⟨by decide, by decide, by decide, by decide, fun m h => by cases h; decide⟩
  · have e : State.reset.balance.get l = freshBalance 256 2 := Tab.get_fill _ _
    rw [e]
    exact ⟨by decide, by decide, by decide, by decide, fun m h => by cases h⟩

theorem witness_StepKeepsChannels : (after (.supplyFallsLow 19499) (driven (withRun 2 10) 2)).driveSound := by
  unfold State.driveSound State.channelsSound Channel.sound
  decide +kernel

theorem witness_StepKeepsFaultList : State.reset.listSound ∧ ∃ t, step (State.reset.withPending [.clearFaultsAll .service]) = .next t := by
  refine ⟨?_, _, rfl⟩
  unfold State.listSound
  decide +kernel

theorem witness_StepKeepsFlowRequest : State.reset.flowSound ∧ { State.reset with flowRequest := 400 }.flowSound := by
  unfold State.flowSound
  decide +kernel

theorem witness_StepKeepsSettings : (withSettings fun x => { x with rooms := x.rooms.set 6 ⟨[9, 10, 11, 12], 100⟩ }).settingsSound := by
  unfold State.settingsSound Store.sound State.pinsSound Settings.sound roomsSound
  refine ⟨⟨by decide +kernel, by decide +kernel, ?_, by decide +kernel⟩, by decide +kernel⟩
  intro save h
  cases h

/-- A run of 11 slots with a carry of 37, and a step. -/
theorem witness_StepKeepsCarries :
    (let s := (driven (withRun 2 10) 2).onDuty 2 fun d => { d with carry := 37 };
      s.settingsSound ∧ s.carrySound ∧ (s.run 2).length + (s.duty.get 2).carry = 48 ∧ step s = .next s) := by
  unfold State.settingsSound Store.sound State.pinsSound Settings.sound roomsSound State.carrySound
  refine ⟨⟨⟨by decide +kernel, by decide +kernel, ?_, by decide +kernel⟩, by decide +kernel⟩, by decide +kernel, by decide +kernel, rfl⟩
  intro save h
  cases h

theorem witness_CommandsNotTakenDoNothing :
    (after .resetHold State.reset).mode = .held ∧ Instr.settleEnd ≠ .resetHold ∧ (∀ mv, Instr.settleEnd ≠ .fullReset mv)
      ∧ requestIn (.takeMail .room []) = some (.room, 5, []) ∧ ((portAt .room .replying [] false).ports.get .room).state = .replying :=
  ⟨by decide +kernel, by decide, fun _ => by simp, rfl, by decide +kernel⟩

theorem witness_ResetsAreAskedForAndHeld : State.reset.listens .service := by unfold State.listens; decide +kernel

/-- A supply at 21.0 V and one above it; an image that is valid and one that is not; SUPPLY_LOW listed and, under IGNORE, not. -/
theorem witness_FullResetStartsEveryBlock : (after (.fullReset 21000) State.reset).supply.low = true
    ∧ (after (.fullReset 21001) State.reset).supply.low = false ∧ State.reset.store.image.valid = false
    ∧ (State.reset.response (.part .supplyLow)).mode ≠ .ignore
    ∧ ((withResponse 8 ⟨.ignore, .none⟩ State.reset).response (.part .supplyLow)).mode = .ignore := by decide +kernel

/-- An IDLE port, 51 and 52 bytes received, a REPLYING port; 52 bytes to send; a frame for each way to be malformed: a bad stop bit, 3 bytes, a
length of 49, a byte too many, a wrong check. -/
theorem witness_PortsCollectFrames :
    State.reset.mode = .running ∧ (State.reset.ports.get .room).state = .idle
      ∧ ((portAt .room .receiving (List.replicate 51 0) false).ports.get .room).buffer.length < 52
      ∧ 52 ≤ ((portAt .room .receiving (List.replicate 52 0) false).ports.get .room).buffer.length
      ∧ ((portAt .room .replying [] false).ports.get .room).state = .replying
      ∧ 1 ≤ (List.replicate 52 (0 : Byte)).length ∧ (List.replicate 52 (0 : Byte)).length ≤ 52
      ∧ ((portAt .room .receiving (requestFrame 5 []) true).ports.get .room).malformed = true
      ∧ ([5, 0, 0] : List Byte).length < 4 ∧ 48 < (([5, 49] : List Byte).getD 1 0).toNat
      ∧ (requestFrame 5 [] ++ [0]).length ≠ ((requestFrame 5 [] ++ [0]).getD 1 0).toNat + 4
      ∧ ([5, 0, 0, 0] : List Byte).drop 2 ≠ bytesOf 2 (crc ([5, 0, 0, 0].take 2)).toNat := by decide +kernel

theorem witness_RequestFrameIsItsCommand :
    (Instr.dropPin .room [3]).wellFormed = true ∧ requestIn (.dropPin .room [3]) = some (.room, 8, [3])
      ∧ (portAt .room .receiving (requestFrame 8 [3]) false).mode = .running
      ∧ (portAt .room .receiving (requestFrame 8 [3]) false).ports.get .room = ⟨.receiving, requestFrame 8 [3], false, none⟩ := by decide +kernel

theorem witness_ReplySentFreesThePort :
    (State.reset.ports.get .room).state ≠ .replying ∧ ((portAt .service .replying [] false).ports.get .service).state = .replying
      ∧ (portAt .service .replying [] false).restartPending = false
      ∧ ((after (.restart .service []) State.reset).ports.get .service).state = .replying
      ∧ (after (.restart .service []) State.reset).restartPending = true := by decide +kernel

theorem witness_RequestsAreCheckedInOrder :
    State.reset.listens .room ∧ (Instr.unknownKind .room 0 []).wellFormed = true ∧ (Instr.unknownKind .room 17 []).wellFormed = true
      ∧ (ownerOf 16 = some .service ∧ Master.room ≠ .service) ∧ ownerOf 6 = some .room
      ∧ lengthAllowed 6 18 = false ∧ lengthAllowed 6 0 = false ∧ lengthAllowed 7 3 = false ∧ lengthAllowed 7 8 = false
      ∧ lengthAllowed 1 5 = false := by
  unfold State.listens
  decide +kernel

theorem witness_RefusedRequestsChangeNothing :
    State.reset.listens .room ∧ ((after (.takeMail .room []) State.reset).ports.get .room).reply = some ⟨.empty, 0x400, []⟩ := by
  unfold State.listens
  decide +kernel

/-- A port that is IDLE and one that is RECEIVING. -/
theorem witness_EveryRequestIsAnswered :
    mailed.listens .source ∧ mailed.mailSound ∧ (Instr.takeMail .source []).wellFormed = true
      ∧ (portAt .room .receiving [5] false).listens .room ∧ ((portAt .room .receiving [5] false).ports.get .room).state = .receiving :=
  ⟨by unfold State.listens; decide +kernel, witness_StepKeepsMail.1, rfl, by unfold State.listens; decide +kernel, by decide +kernel⟩

/-- PINS has records 0..5, FAULTS one entry: the last index taken and the first refused. -/
theorem witness_ReadTableReturnsWholeRecords :
    State.reset.listens .room ∧ tableOf 15 = none ∧ tableOf 14 = some .responses ∧ Table.responses.hasViews = true
      ∧ (State.reset.recordsOf .pins false).length = 6 ∧ (State.reset.recordsOf .faults false).length = 1 := by
  unfold State.listens
  decide +kernel

/-- The kind ADOPTED is bit 8 of a set; a running part whose attention line is asserted, and one where it is not. -/
theorem witness_RaiseReachesItsRoute :
    Kind.adopted.bit.getLsbD 8 = true ∧ (8 : Nat) < 12 ∧ mailed.mode = .running ∧ mailed.attention .room = true ∧ mailed.attention .source = false := by
  decide +kernel

/-- The reset state's one fault entry is the first record of FAULTS. -/
theorem witness_RecordsHoldTheirFields :
    State.reset.faults.entries[0]? = some storeInvalidEntry
      ∧ (State.reset.recordsOf .faults false).getD 0 [] = [11, 0, 0, 0, 0, 0, 0, 0, 1] := by decide +kernel

theorem witness_NoticeRequestsSetTheSendersSets : State.reset.listens .source := by unfold State.listens; decide +kernel

theorem witness_MailIsFirstInFirstOut :
    mailed.listens .service ∧ mailed.listens .source ∧ (3 : Byte) = (3 : Byte) ∧ 2 < (3 : Byte).toNat ∧ masterCode .source ≠ masterCode .service
      ∧ 2 ≤ (mailed.notices.get .source).mail.length ∧ (mailed.notices.get .room).mail.length < 2
      ∧ (mailed.notices.get .service).mail = [] ∧ (mailed.notices.get .source).mail ≠ [] := by
  unfold State.listens
  decide +kernel

/-- A tool that is listened to, the 36 bytes of a GENERAL record and 35 of them, the index 0 and the first one refused. -/
theorem witness_WriteGeneralStagesTheRecord :
    State.reset.listens .service ∧ defaultGeneral.bytes.length = 36 ∧ (defaultGeneral.bytes.drop 1).length ≠ 36 ∧ (1 : Byte) ≠ 0 := by
  unfold State.listens
  decide +kernel

/-- The loops 23 and 24; a record as it stands, and one with each kind of clamp. -/
theorem witness_WriteLoopSettingsStagesTheRecord :
    State.reset.listens .service ∧ (23 : Byte).toNat = (23 : LoopNo).val ∧ 23 < (24 : Byte).toNat ∧ ([1, 10, 70, 1, 1, 1, 1] : List Byte).length = 7
      ∧ (1 ≤ (250 : Byte).toNat ∧ (250 : Byte).toNat ≤ 250 ∧ ¬ (251 : Byte).toNat ≤ 250) ∧ (23 : LoopNo).val % 2 = 1 := by
  unfold State.listens
  decide +kernel

/-- The record 0 and the first one refused; a point at the end of its range and one past it. -/
theorem witness_WriteConversionStagesThePoints :
    State.reset.listens .service ∧ (1 : Byte) ≠ 0 ∧ (∀ i : Fin 17, -300 ≤ ((Tab.fill 17 (950 : BitVec 16)).get i).toInt
      ∧ ((Tab.fill 17 (950 : BitVec 16)).get i).toInt ≤ 950) ∧ 950 < ((Tab.fill 17 (951 : BitVec 16) : Tab 17 (BitVec 16)).get 0).toInt := by
  unfold State.listens
  decide +kernel

theorem witness_WriteRoutesStagesARoute : State.reset.listens .service ∧ (9 : Byte).toNat = (9 : Fin 10).val ∧ 9 < (10 : Byte).toNat := by
  unfold State.listens
  decide +kernel

/-- Class 11 and the first one refused; a mode that class 0 allows, and a code that is no mode. -/
theorem witness_WriteFaultResponsesStagesTheResponse :
    State.reset.listens .service ∧ (11 : Byte).toNat = (11 : Fin 12).val ∧ 11 < (12 : Byte).toNat
      ∧ (∃ w ∈ allowedModes 0, w.code = (defaultResponses.get 0).mode.code) ∧ ¬ ∃ w ∈ allowedModes 0, w.code = 200 := by
  unfold State.listens
  decide +kernel

/-- One byte; table 15, which there is none of; table 11, the part's own. -/
theorem witness_WriteSettingsOtherIsRefused :
    State.reset.listens .service ∧ (Instr.writeSettingsOther .service [3]).wellFormed = true
      ∧ (Instr.writeSettingsOther .service [15, 0]).wellFormed = true ∧ (Instr.writeSettingsOther .service [11, 0]).wellFormed = true := by
  unfold State.listens
  decide +kernel

/-- R10: no conflict with another list, a repeat, a loop of another list. -/
theorem witness_WriteRoomsStagesTheRecord :
    State.reset.listens .service ∧ ([0, 0, 0, 0, 0] : List Byte).length ≠ 6 ∧ ([9, 10] : List Byte).Nodup ∧ ¬ ([9, 9] : List Byte).Nodup
      ∧ 4 < (5 : Byte).toNat ∧ 23 < (24 : Byte).toNat
      ∧ (9 : LoopNo) ∈ ((withSettings fun x => { x with rooms := x.rooms.set 6 ⟨[9], 25⟩ }).store.staged.rooms.get 6).loops := by
  unfold State.listens
  decide +kernel

theorem witness_SavesTakeAndWriteTheSnapshot :
    State.reset.listens .service ∧ State.reset.store.save = none ∧ (State.reset.startSave .manual).listens .service
      ∧ (State.reset.startSave .manual).mode = .running ∧ (State.reset.startSave .manual).store.save.isSome = true
      ∧ (after (.saveComplete true) (State.reset.startSave .manual)).store.loadValid = State.reset.store.loadValid := by
  unfold State.listens
  decide +kernel

/-- Slots 46 and 47, counts 88 and 89; the flag clear and set; a save in progress and none; an autosave postponed and none. -/
theorem witness_AutosavesStartOrWait :
    (atSlot 47).mode = .running ∧ (atSlot 47).clock.slot = 47 ∧ (atSlot 46).clock.slot ≠ 47
      ∧ ((atSlot 47).onStore fun st => { st with autosaveCount := 88 }).store.autosaveCount < 89
      ∧ 89 ≤ ((atSlot 47).onStore fun st => { st with autosaveCount := 89 }).store.autosaveCount
      ∧ (atSlot 47).store.learnedChanged = false ∧ (atSlot 47).learned.store.learnedChanged = true ∧ (atSlot 47).learned.store.save = none
      ∧ ((atSlot 47).startSave .manual).learned.store.save ≠ none ∧ (atSlot 47).store.autosavePostponed = false
      ∧ ((atSlot 47).onStore fun st => { st with autosavePostponed := true }).store.autosavePostponed = true := by decide +kernel

theorem witness_PostDemandRefreshesRooms :
    State.reset.listens .room ∧ 15 < (16 : Byte).toNat ∧ (15 : Byte).toNat ≤ 15 ∧ (100 : Byte).toNat ≤ 100 ∧ 100 < (101 : Byte).toNat
      ∧ (List.replicate 8 ((0, 0) : Byte × Byte)).length ≤ 8 := by
  unfold State.listens
  decide +kernel

/-- Ages one short of and at the timeouts of 4 frames and 6 slots; a settle at 2 and at 3 of its 3 slots. -/
theorem witness_TimeoutsBringTheirConditions :
    (let s := withSettings fun x => { x with rooms := x.rooms.set 6 ⟨[9], 25⟩ };
      s.mode = .running ∧ (s.store.inForce.rooms.get 5).loops = [] ∧ (s.store.inForce.rooms.get 6).loops ≠ []
        ∧ 3 < s.general.demandTimeout ∧ s.general.demandTimeout ≤ 4 ∧ s.present (.room 6) = false ∧ (s.rooms.get 6).state ≠ .stale
        ∧ 5 < s.general.sourceTimeout ∧ s.general.sourceTimeout ≤ 6 ∧ s.present (.part .sourceSilent) = false
        ∧ 2 < s.general.settleCount ∧ s.general.settleCount ≤ 3 ∧ ({ resetSource with settling := true } : Source).settling = true) := by
  decide +kernel

/-- Two RUN loops and a third pinned: no crowd; pin 6, slot 48, loop 24 and a loop that is OFF refused; pin 5 FREE. -/
theorem witness_PinsAreSetAndDropped :
    (let s := withSettings fun x => { x with loops := (x.loops.modify 2 fun y => { y with mode := .run }).modify 5 fun y => { y with mode := .run } };
      s.listens .room ∧ (s.loopSettings 2).mode = .run ∧ (s.loopSettings 3).mode ≠ .run ∧ s.pinnedElsewhere 0 2 = false
        ∧ s.noPinRoom 0 [2] = false ∧ s.noPinRoom 0 [2, 5] = true ∧ 5 < (6 : Byte).toNat ∧ 47 < (48 : Byte).toNat
        ∧ ({ s with pins := s.pins.set 1 ⟨true, [2], 0, 1⟩ } : State).pinnedElsewhere 0 2 = true
        ∧ s.pins.get 5 = ⟨false, [], 0, 0⟩ ∧ (5 : Byte).toNat = (5 : Fin 6).val) := by
  unfold State.listens
  decide +kernel

/-- Slot 47, each bound of the code, and a post that repeats the values in force. -/
theorem witness_PostSourceSetsThePostedValues :
    State.reset.listens .source ∧ (atSlot 47).clock.slot = 47 ∧ 4 < (5 : Byte).toNat ∧ 1 ≤ (1 : Byte).toNat ∧ (4 : Byte).toNat ≤ 4
      ∧ (let t := after (.postSource .source [1, 2, 0, 60]) heatingAt60;
          t.nextView = heatingAt60.source.view ∧ t.nextLimits = heatingAt60.source.limits) := by
  unfold State.listens
  decide +kernel

/-- A condition present, a RETRY hold standing, a record that a clear acts on; a sound state; first bytes 0, 1 and 2. -/
theorem witness_ClearFaultsActsOnRecords :
    State.reset.listens .service ∧ State.reset.driveSound ∧ State.reset.present (.part .storeInvalid) = true
      ∧ (State.reset.setRecord (.loop .stuckOpen 3) ⟨false, .retry, .planned, 1⟩).hold 3 = .planned
      ∧ ¬ (State.reset.present (.room 3) = true ∨ (State.reset.record (.room 3)).hold = .retry)
      ∧ 1 < (2 : Byte).toNat ∧ ([11, 1] : List Byte).length % 2 = 0 := by
  unfold State.listens State.driveSound State.channelsSound Channel.sound
  decide +kernel

/-- Loops 0 and 23 taken, 24 refused, all 24 named. -/
theorem witness_ClearCaptureEmptiesRecords :
    State.reset.listens .service ∧ (∀ x ∈ ([0, 23] : List Byte), x.toNat ≤ 23) ∧ (∃ x ∈ ([0, 24] : List Byte), 23 < x.toNat)
      ∧ (List.replicate 24 (0 : Byte)).length ≤ 24 ∧ 1 < (2 : Byte).toNat ∧ ([0] : List Byte) ≠ [] := by
  unfold State.listens
  decide +kernel

theorem witness_RelearnResetsTheLoopsNamed :
    State.reset.listens .service ∧ (∀ x ∈ ([23, 0] : List Byte), x.toNat ≤ 23) ∧ (∃ x ∈ ([24] : List Byte), 23 < x.toNat) := by
  unfold State.listens
  decide +kernel

/-- Two and three readings, for a return channel that may carry the condition and for one whose loop has no sensor. -/
theorem witness_SensorFaultsFollowTheCounts :
    (let s := withSettings fun x => { x with loops := x.loops.modify 7 fun y => { y with returnSensorPresent := false } };
      s.mode = .running ∧ s.mayCarry 3 = true ∧ ¬ s.mayCarry 7 = true ∧ s.present (sensorKey 3) = false
        ∧ (s.setRecord (sensorKey 3) ⟨true, .none, .none, 0⟩).present (sensorKey 3) = true
        ∧ 3 ≤ ((s.sensors.modify 3 fun x => { x with invalidRun := 3 }).get 3).invalidRun) := by decide +kernel

/-- Measurements at 11 and at 12 slots; a driven loop, whose return of 25.0 has risen by 0.5 K and by less, in slot 46. -/
theorem witness_DeadTimeMeasurementsEnd :
    (let s := ((driven (withRun 2 10) 2).onBalance 2 fun b => { b with measurement := some ⟨250, 11, 0, 0⟩ });
      s.mode = .running ∧ s.energised 2 = true ∧ (s.balance.get 2).measurement = some ⟨250, 11, 0, 0⟩ ∧ (s.balance.get 2).capture.full = false
        ∧ ((s.onBalance 2 fun b => { b with measurement := some ⟨250, 12, 0, 0⟩ }).balance.get 2).measurement = some ⟨250, 12, 0, 0⟩
        ∧ s.clock.slot ≠ 47 ∧ s.clock.resetPlan = false ∧ (250 : Int) + 5 ≤ 255 ∧ ¬ (250 : Int) + 5 ≤ 254) := by decide +kernel

/-- R100: a measurement at 10 slots whose return has not risen stays armed with 11, its channel driven on. -/
theorem witness_DeadTimeMeasurementsEnd_armed :
    (let s := ((driven (withRun 2 10) 2).onBalance 2 fun b => { b with measurement := some ⟨400, 10, 0, 0⟩ }).onChannel 2
        fun c => { c with boostElapsed := 600 };
      let t := after (.slotEnd (codes 2048)) s;
      s.energised 2 = true ∧ t.energised 2 = true ∧ (t.sensors.get (returnChannel 2)).result = .valid 380 ∧ 10 + 1 < 12
        ∧ (t.channels.get 2).boostElapsed = 600 ∧ (t.balance.get 2).measurement = some ⟨400, 11, 0, 0⟩) := by decide +kernel

/-- The stuck window of 9 at 8 and at 9, on a driven loop without a return reading. -/
theorem witness_StuckWindowsBringTheirConditions :
    (let s := driven (withRun 2 10) 2;
      s.mode = .running ∧ s.energised 2 = true ∧ s.returnReading 2 = none ∧ 8 < s.general.stuckWindow ∧ s.general.stuckWindow ≤ 9
        ∧ s.present (.loop .stuckClosed 2) = false ∧ s.present (.loop .stuckOpen 2) = false ∧ s.hold 2 ≠ .closed) := by decide +kernel

/-- The retry time of 48 at 47 and at 48, the condition absent and present, each response mode. -/
theorem witness_RetryExpiryReleasesOrRenews :
    (let s := (withRun 17 10).setRecord (.loop .stuckClosed 17) ⟨true, .retry, .closed, 48⟩;
      s.mode = .running ∧ (s.record (.loop .stuckClosed 17)).hold = .retry ∧ 47 < s.general.retryTime ∧ s.general.retryTime ≤ 48
        ∧ s.present (.loop .stuckClosed 17) = true ∧ s.hold 17 = .closed ∧ s.effMode 17 ≠ .following
        ∧ (s.response (.loop .stuckClosed 17)).mode = .report
        ∧ ((withResponse 2 ⟨.latch, .closed⟩ s).response (.loop .stuckClosed 17)).mode = .latch
        ∧ ((withResponse 2 ⟨.retry, .closed⟩ s).response (.loop .stuckClosed 17)).mode = .retry) := by decide +kernel

/-- A budget of 2 with none, one and two starts used; a lone PENDING loop; a pair that waits for the same thing, and for two. -/
theorem witness_ArbiterServesPendingChannels :
    (let s := (withRun 2 10).setChannelState 2 .pending .restart;
      let p := (withPair.setChannelState 0 .pending .restart).setChannelState 1 .pending .restart;
      let q := p.setChannelState 1 .pending .safeOpen;
      s.mode = .running ∧ s.effMode 2 = .single ∧ (s.channels.get 2).state = .pending ∧ (∀ o, o < (2 : LoopNo) → (s.channels.get o).state ≠ .pending)
        ∧ s.supply.planStarts + s.supply.extraStarts + 2 ≤ s.general.startBudget ∧ s.general.startBudget < 1 + 0 + 2
        ∧ s.general.startBudget ≤ 2 + 0
        ∧ p.effMode 0 = .leader ∧ (p.channels.get 0).state = .pending ∧ (p.channels.get (partner 0)).state = .pending
        ∧ (p.channels.get (partner 0)).pendingFor = (p.channels.get 0).pendingFor
        ∧ (q.channels.get (partner 0)).pendingFor ≠ (q.channels.get 0).pendingFor) := by decide +kernel

/-- The boost time of 60 s at 599 and at 600 periods; the inrush limit of 350 mA at it and above it; a SAFE_OPEN channel. -/
theorem witness_DrivePeriodsBoostThenHold :
    (let s := driven (withRun 2 10) 2;
      s.mode = .running ∧ (s.channels.get 2).phase = .boost ∧ (s.channels.get 3).phase = .none ∧ 599 < s.general.boostTime * 10
        ∧ s.general.boostTime * 10 ≤ 600 ∧ (s.channels.get 2).cut = false ∧ 350 ≤ s.general.inrushLimit ∧ s.general.inrushLimit < 351
        ∧ ((s.startChannel 4 .safeOpen).channels.get 4).state = .safeOpen ∧ ((s.startChannel 4 .safeOpen).channels.get 4).phase = .boost) := by
  decide +kernel

/-- The limits of 5 ms and 2000 ms at them and past them, the thresholds of 800 mA and 15 mA on both sides; DRIVE_OPEN present, its recovery at 1999 ms
and at 2000 ms. -/
theorem witness_LoadSensingFindsAndEndsDriveFaults :
    (let s := driven (withRun 2 10) 2;
      s.mode = .running ∧ s.energised 2 = true ∧ s.energised 3 = false ∧ s.general.overcurrentThreshold < 801 ∧ 5 ≤ s.general.overcurrentTime
        ∧ s.general.overcurrentTime < 6 ∧ s.present (.loop .driveOvercurrent 2) = false ∧ 14 < s.general.openLoadThreshold
        ∧ s.general.openLoadThreshold ≤ 15 ∧ 2000 ≤ s.general.openLoadTime * 100 ∧ s.general.openLoadTime * 100 < 2001
        ∧ s.present (.loop .driveOpen 2) = false ∧ 1999 < s.general.openLoadTime * 100
        ∧ (s.setRecord (.loop .driveOpen 2) ⟨true, .none, .none, 0⟩).present (.loop .driveOpen 2) = true
        ∧ (s.setRecord (.loop .driveOpen 2) ⟨true, .none, .none, 0⟩).energised 2 = true) := by decide +kernel

/-- A follower BLOCKED for a fault alone, one with the supply cause too, one that still waits for its leader's channel. -/
theorem witness_FollowerFaultReleases :
    (let s := withPair.onChannel 1 fun c => { c with state := .blocked, causes := ⟨true, false, false⟩ };
      s.mode = .running ∧ (s.channels.get 1).causes.fault = true ∧ s.hold 1 ≠ .closed ∧ s.effMode 1 = .following ∧ s.energised (partner 1) = false
        ∧ (driven s 0).energised (partner 1) = true ∧ (s.run 0).covers 0 = false ∧ ((driven s 0).run 0).covers 0 = true
        ∧ ((driven s 0).run 0).endCause ≠ .fault
        ∧ ((s.onChannel 1 fun c => { c with causes := ⟨true, false, true⟩ }).channels.get 1).causes.supply = true) := by decide +kernel

/-- Levels on both sides of 19.5 V and 21.0 V, NORMAL and LOW; a channel freed of its last cause, one that keeps another; a loop that is OFF, one under an
OPEN hold, one whose run goes on. -/
theorem witness_SupplyBlocksAndReturns :
    State.reset.mode = .running ∧ State.reset.supply.low = false ∧ 19499 < 19500 ∧ State.reset.present (.part .supplyLow) = false
      ∧ (let s := after (.supplyFallsLow 19499) (driven (withRun 2 10) 2);
          s.supply.low = true ∧ 21000 < 21001 ∧ (s.channels.get 2).causes = ⟨false, false, true⟩
            ∧ ((s.onChannel 2 fun c => { c with causes := ⟨true, false, true⟩ }).channels.get 2).causes ≠ ⟨false, false, true⟩
            ∧ s.effMode 2 ≠ .off ∧ s.effMode 3 = .off ∧ s.hold 2 ≠ .opened ∧ (s.run 2).covers s.clock.slot.val = true ∧ (s.run 2).endCause ≠ .fault
            ∧ (s.setRecord (.loop .stuckClosed 2) ⟨true, .latch, .opened, 0⟩).hold 2 = .opened) := by decide +kernel

/-- Slots 46 and 47, without a RESET PLAN waiting and with one; a valid code and an invalid one. -/
theorem witness_SlotEndAdvancesTheSlot :
    (atSlot 46).mode = .running ∧ (atSlot 46).clock.slot ≠ 47 ∧ (atSlot 47).clock.slot = 47 ∧ (atSlot 46).clock.resetPlan = false
      ∧ (after (.resetPlan .service []) (atSlot 46)).clock.resetPlan = true ∧ validCode 31 = false ∧ validCode 32 = true := by decide +kernel

/-- Slot 46 with no RESET PLAN waiting; a driven loop with no dead slots whose slot can be a sample; a loop free of holds, one under a hold. -/
theorem witness_SlotEndTakesSamplesAndHeat :
    (let s := (driven (withRun 2 10) 2).onBalance 2 fun b => { b with deadSlots := 0 };
      s.mode = .running ∧ s.clock.slot ≠ 47 ∧ s.clock.resetPlan = false ∧ s.openSlot 2 = true ∧ s.sampleSlot 2 = true ∧ s.hold 2 = .none
        ∧ (s.setRecord (.loop .stuckOpen 2) ⟨true, .latch, .planned, 0⟩).hold 2 = .planned) := by decide +kernel

/-- A threshold of 55.0 degrees less its hysteresis, and a reading on both sides of each; FLOW_SHUTDOWN absent and present; a listing mode. -/
theorem witness_FlowThresholdsActOnTheirManifold :
    (let s := atSlot 46;
      let key := CondKey.manifold .flowShutdown .a;
      s.mode = .running ∧ s.clock.slot ≠ 47 ∧ s.clock.resetPlan = false ∧ s.present key = false
        ∧ (s.setRecord key ⟨true, .none, .none, 0⟩).present key = true ∧ (s.response key).mode ≠ .ignore ∧ manifoldOf 11 = .a ∧ manifoldOf 12 = .b
        ∧ s.general.flowShutdown < s.general.flowShutdown + 1 ∧ s.general.flowHysteresis < s.general.flowShutdown) := by decide +kernel

/-- R124: a slot end that ends FLOW_SHUTDOWN of manifold A: a channel freed of its last cause in the midst of its run, in an OFF loop and under an OPEN hold. -/
theorem witness_FlowThresholdsActOnTheirManifold_freed :
    (let key := CondKey.manifold .flowShutdown .a;
      let blocked (c : Channel) : Channel := { c with state := .blocked, phase := .none, causes := ⟨false, true, false⟩ };
      let s := (loopsOf .a).foldl (fun s l => s.onChannel l blocked) ((driven (withRun 2 10) 2).setRecord key ⟨true, .none, .none, 0⟩);
      let t := after (.slotEnd (codes 2048)) s;
      s.driveSound ∧ s.present key = true ∧ t.present key = false ∧ (s.channels.get 2).causes = ⟨false, true, false⟩
        ∧ (t.channels.get 2).causes = ⟨false, false, false⟩ ∧ t.hold 2 = s.hold 2 ∧ t.effMode 2 ≠ .off ∧ t.hold 2 ≠ .opened
        ∧ (t.run 2).covers s.clock.slot.val = true ∧ (t.run 2).covers t.clock.slot.val = true ∧ (s.run (s.planLoop 2)).endCause ≠ .fault
        ∧ t.effMode 3 = .off ∧ (t.run 3).covers t.clock.slot.val = false ∧ (t.channels.get 3).causes = ⟨false, false, false⟩
        ∧ (s.setRecord (.loop .stuckClosed 2) ⟨true, .latch, .opened, 0⟩).hold 2 = .opened) := by
  unfold State.driveSound State.channelsSound Channel.sound
  decide +kernel

/-- A pair, both channels IDLE, whose run begins in slot 1; a leader whose run goes on. -/
theorem witness_SlotStartFollowsThePlan :
    (let s := withPair.onRun 0 fun _ => ⟨.ordinary, 1, 10, false, 1, .asPlaced, 10, false, 0⟩;
      s.mode = .running ∧ s.clock.slot ≠ 47 ∧ s.clock.resetPlan = false ∧ s.effMode 0 = .leader ∧ (s.run 0).covers 1 = true
        ∧ (s.channels.get 0).state = .idle ∧ (s.channels.get (partner 0)).state = .idle ∧ (s.hold (partner 0)).holdsOut = false
        ∧ ((driven s 0).channels.get 0).state = .boost ∧ s.runLeader 0 = true ∧ s.driveSound ∧ (driven s 0).driveSound) := by
  unfold State.driveSound State.channelsSound Channel.sound
  decide +kernel

/-- R113, R118: single loops 2 and 4 whose runs begin in slot 1 under a start budget of 1: the first is started, the second waits (log 25). -/
theorem witness_SlotStartFollowsThePlan_budget :
    (let run : Run := ⟨.ordinary, 1, 10, false, 1, .asPlaced, 10, false, 0⟩;
      let s := (withSettings fun x => { x with
        general := { x.general with startBudget := 1 }
        loops := (x.loops.modify 2 fun y => { y with mode := .run }).modify 4 fun y => { y with mode := .run } });
      let t := after (.slotEnd (codes 2048)) ((s.onRun 2 fun _ => run).onRun 4 fun _ => run);
      t.supply.planStarts = 1 ∧ (t.channels.get 2).state = .boost ∧ (t.channels.get 4).state = .pending ∧ (t.channels.get 4).pendingFor = .restart
        ∧ (t.channels.get 4).causes = ⟨false, false, false⟩ ∧ t.runStarts 4 = 1 ∧ t.hold 4 ≠ .opened) := by decide +kernel

/-- Slots 46 and 47, with a RESET PLAN waiting and without; SOURCE_SILENT not listed, and due at the end of slot 47. -/
theorem witness_FrameEndAdoptsAndBegins :
    (atSlot 47).mode = .running ∧ (atSlot 47).clock.slot = 47 ∧ (atSlot 46).clock.slot ≠ 47 ∧ (atSlot 47).clock.resetPlan = false
      ∧ (after (.resetPlan .service []) (atSlot 47)).clock.resetPlan = true ∧ (atSlot 47).listed (.part .sourceSilent) = false
      ∧ ({ atSlot 47 with source := { resetSource with age := 6 } } : State).sourceDue = true := by decide +kernel

theorem witness_PlanResetBeginsAFrame :
    (let s := after (.resetPlan .service []) (atSlot 46);
      s.mode = .running ∧ s.clock.slot ≠ 47 ∧ s.clock.resetPlan = true ∧ (atSlot 46).clock.resetPlan = false) := by decide +kernel

/-- The last slot; a plan with a run in it. -/
theorem witness_PlacementKeepsCeilingAndBudget : 47 < 48 ∧ ((driven (withRun 2 10) 2).run 2).covers 10 = true := by decide +kernel

theorem witness_TrimKeepsCeiling : (47 : Nat) < 48 ∧ 10 ≤ 47 ∧ 9 < 10 ∧ ((driven (withRun 2 10) 2).run 2).covers 9 = true := by decide +kernel

theorem witness_ConversionInterpolates : validCode 4063 = true ∧ (4063 : BitVec 12).toNat / 256 = (15 : Fin 16).val
    ∧ (∀ i, -300 ≤ defaultConversion.get i ∧ defaultConversion.get i ≤ 950) := by decide +kernel

/-- A RUN leader in no room, and one in a room, FRESH and not; a loop that is no RUN leader. -/
theorem witness_RequestRoundsHalfUp :
    (let s := withSettings fun x => { x with loops := x.loops.modify 2 (fun y => { y with mode := .run }), rooms := x.rooms.set 6 ⟨[2], 25⟩ };
      (withRun 2 10).runLeader 2 = true ∧ (withRun 2 10).runLeader 3 = false ∧ (∀ r, (2 : LoopNo) ∉ ((withRun 2 10).store.inForce.rooms.get r).loops)
        ∧ s.runLeader 2 = true ∧ (∀ o, (2 : LoopNo) ∈ (s.store.inForce.rooms.get o).loops → o = 6) ∧ (s.rooms.get 6).state ≠ .fresh
        ∧ (({ s with rooms := s.rooms.set 6 ⟨40, .fresh, 0, 0⟩ } : State).rooms.get 6).state = .fresh) := by decide +kernel

/-- A loop whose request exceeds the frame, one that stays below it less the headroom, one between; a view that is no heating one. -/
theorem witness_FlowRequestSteps :
    (let s := withRun 2 10;
      (s.source.view = .heat ∨ s.source.view = .fallback) ∧ s.runLeader 2 = true ∧ s.hold 2 = .none
        ∧ 48 < ((s.onDuty 2 fun d => { d with demand := 90, rho := 49 }).duty.get 2).rho ∧ 47 - s.general.headroom < 48 - s.general.headroom
        ∧ ¬ (48 : Nat) < 48 ∧ ¬ 48 < 48 - s.general.headroom) := by decide +kernel

theorem witness_FactorUpdateTakesFiveStages :
    ((withRun 2 10).onBalance 2 fun b => { b with sum := 90, count := 3 }).balanceOutcome 2 = .updated
      ∧ ((withRun 2 10).onBalance 2 fun b => { b with sum := 90, count := 2 }).balanceOutcome 2 ≠ .updated := by decide +kernel

end Sys2Proof.Tests
end

section
/-! The conversion of a valid code (R42). -/

namespace Sys2Proof.Conversion

open Sys2Proof Sys2Proof.Machine

theorem clampInt_eq_max_min {lo hi : Int} (h : lo ≤ hi) (x : Int) : clampInt lo hi x = max lo (min hi x) := by
  unfold clampInt
  split
  · omega
  · split <;> omega

theorem clampInt_of_mem {lo hi x : Int} (hlo : lo ≤ x) (hhi : x ≤ hi) : clampInt lo hi x = x := by
  rw [clampInt_eq_max_min (Int.le_trans hlo hhi)]
  omega

/-- The points below and above a code in step `j` of the table are its records `j` and `j + 1`. -/
theorem convert_eq_clampInt (table : Tab 17 Int) {code : BitVec 12} {j : Fin 16} (hj : code.toNat / 256 = j.val) :
    convert table code = clampInt (-300) 950 (table.get j.castSucc +
      Int.tdiv ((table.get j.succ - table.get j.castSucc) * ((code.toNat - 256 * j.val : Nat) : Int)) 256) := by
  have hoffset : code.toNat % 256 = code.toNat - 256 * j.val := by omega
  have hlow : conversionPoint table j.val = table.get j.castSucc := dif_pos (by omega)
  have hhigh : conversionPoint table (j.val + 1) = table.get j.succ := dif_pos (by omega)
  simp only [convert, hj, hoffset, hlow, hhigh]

/-- R42: a rising step is truncated to between nothing and the whole step. -/
theorem tdiv_step_of_nonneg {step offset : Int} (hstep : 0 ≤ step) (h0 : 0 ≤ offset) (h256 : offset ≤ 256) :
    0 ≤ Int.tdiv (step * offset) 256 ∧ Int.tdiv (step * offset) 256 ≤ step := by
  have hnonneg : 0 ≤ step * offset := Int.mul_nonneg hstep h0
  have hwhole : step * offset ≤ step * 256 := Int.mul_le_mul_of_nonneg_left h256 hstep
  rw [Int.tdiv_eq_ediv_of_nonneg hnonneg]
  omega

/-- R42: truncation toward zero keeps an interpolated temperature between its two points, whichever of them is the higher. -/
theorem interpolation_mem {low high offset : Int} (h0 : 0 ≤ offset) (h256 : offset ≤ 256) :
    min low high ≤ low + Int.tdiv ((high - low) * offset) 256 ∧ low + Int.tdiv ((high - low) * offset) 256 ≤ max low high := by
  rcases Int.le_total low high with hup | hdown
  · have := tdiv_step_of_nonneg (Int.sub_nonneg.mpr hup) h0 h256
    omega
  · have hstep := tdiv_step_of_nonneg (Int.sub_nonneg.mpr hdown) h0 h256
    have hneg : Int.tdiv ((high - low) * offset) 256 = -Int.tdiv ((low - high) * offset) 256 := by
      rw [← Int.neg_tdiv, ← Int.neg_mul, Int.neg_sub]
    omega

/-- Settles O57: the clamp changes nothing because the interpolated temperature lies between two points in range. -/
theorem conversionInterpolates : Obligations.ConversionInterpolates := by
  intro table code j _ hj
  dsimp only
  have hconvert := convert_eq_clampInt table hj
  refine ⟨hconvert.trans (clampInt_eq_max_min (by decide) _), fun hrange => ?_⟩
  obtain ⟨hmin, hmax⟩ := interpolation_mem (low := table.get j.castSucc) (high := table.get j.succ)
    (offset := ((code.toNat - 256 * j.val : Nat) : Int)) (by omega) (by omega)
  obtain ⟨hlow, hlow'⟩ := hrange j.castSucc
  obtain ⟨hhigh, hhigh'⟩ := hrange j.succ
  refine ⟨hconvert.trans (clampInt_of_mem (by omega) (by omega)), hmin, hmax, fun hpoint => ?_⟩
  simp [hpoint]

end Sys2Proof.Conversion
end

section
/-! What the presence of a condition comes to (R143 to R145), for every class: its listing, the hold on its record, and the channel of a loop that comes
under a CLOSED hold. -/

namespace Sys2Proof.Presence

open Sys2Proof Sys2Proof.Machine

/-! ### States that agree in their fields -/

theorem eq_of_same {s t : State} (h : ∀ f, Same s t f) : t = s := by
  cases s
  cases t
  simp only [State.mk.injEq]
  exact ⟨h .mode, h .restartPending, h .ports, h .notices, h .store, h .clock, h .sensors, h .rooms, h .pins, h .duty, h .plans, h .slots,
    h .planner, h .balance, h .channels, h .supply, h .conds, h .faults, h .watch, h .source, h .flowRequest, h .heat, h .draws, h .pending⟩

theorem eq_with_faultFields {s t : State} (h : Reach faultFields s t) :
    t = { s with conds := t.conds, faults := t.faults, notices := t.notices, channels := t.channels, balance := t.balance,
                 watch := t.watch, plans := t.plans, slots := t.slots, planner := t.planner, duty := t.duty } :=
  eq_of_same fun f => by have hf := h f; cases f <;> first | rfl | exact hf (by decide)

theorem eq_with_conds_notices {s t : State} (h : Reach [.conds, .notices] s t) :
    t = { s with conds := t.conds, notices := t.notices } :=
  eq_of_same fun f => by have hf := h f; cases f <;> first | rfl | exact hf (by decide)

/-! ### Records (R142) -/

theorem record_of_conds {s t : State} (h : t.conds = s.conds) (key : CondKey) : t.record key = s.record key :=
  congrArg (·.get key) h

theorem putRecord_record (s : State) (key k : CondKey) (r : CondRecord) :
    (s.putRecord key r).record k = if k = key then r else s.record k := by
  have hraise : (s.putRecord key r).conds = (s.setRecord key r).conds := (raiseIf_reach _ _ _).get .conds
  rw [record_of_conds hraise]
  exact Conditions.get_set s.conds key k r

theorem conditionPresent_record (s : State) (key k : CondKey) :
    (s.conditionPresent key).record k = if k = key then (s.record key).apply (s.response key) else s.record k := by
  have hlist : (s.enlist key (s.response key).mode).conds = s.conds := (enlist_reach s key _).get .conds
  unfold State.conditionPresent
  rw [putRecord_record, record_of_conds hlist]

theorem conditionEnd_record (s : State) (key k : CondKey) :
    (s.conditionEnd key).record k = if k = key then { s.record key with present := false } else s.record k := by
  unfold State.conditionEnd
  by_cases hpresent : s.present key = true
  · rw [if_pos hpresent, putRecord_record]
  · have hself : s.record key = { s.record key with present := false } := by
      have habsent : (s.record key).present = false := Bool.eq_false_iff.mpr hpresent
      rw [← habsent]
    rw [if_neg hpresent]
    split
    · subst k; exact hself
    · rfl

/-! ### Conditions that end with an energised period (R94, R117, R146) -/

/-- The conditions that the end of an energised period ends. -/
def EndsWithPeriod (key : CondKey) : Prop := ∃ l, key = .loop .driveOvercurrent l ∨ key = .loop .driveOpen l ∨ key = .loop .stuckClosed l

/-- From `s` to `t` no record has changed but that conditions which end with an energised period have ended. -/
def PeriodsEnd (s t : State) : Prop :=
  ∀ key, t.record key = s.record key ∨ EndsWithPeriod key ∧ t.record key = { s.record key with present := false }

theorem PeriodsEnd.of_conds {s t : State} (h : t.conds = s.conds) : PeriodsEnd s t := fun key => .inl (record_of_conds h key)

theorem PeriodsEnd.refl (s : State) : PeriodsEnd s s := .of_conds rfl

theorem PeriodsEnd.trans {s t u : State} (h : PeriodsEnd s t) (k : PeriodsEnd t u) : PeriodsEnd s u := by
  intro key
  rcases h key with hst | ⟨hends, hst⟩ <;> rcases k key with htu | ⟨hends', htu⟩
  · exact .inl (htu.trans hst)
  · exact .inr ⟨hends', by rw [htu, hst]⟩
  · exact .inr ⟨hends, htu.trans hst⟩
  · exact .inr ⟨hends, by rw [htu, hst]⟩

theorem PeriodsEnd.ite {s t u : State} {c : Prop} [Decidable c] (h : PeriodsEnd s t) (k : PeriodsEnd s u) : PeriodsEnd s (if c then t else u) := by
  split <;> assumption

theorem PeriodsEnd.foldl {α : Type} {f : State → α → State} (h : ∀ s x, PeriodsEnd s (f s x)) (l : List α) (s : State) :
    PeriodsEnd s (l.foldl f s) := by
  induction l generalizing s with
  | nil => exact .refl s
  | cons x xs ih => exact (h s x).trans (ih _)

theorem PeriodsEnd.of_reach {A : List Field} {s t : State} (h : Reach A s t) (hconds : Field.conds ∉ A := by decide) : PeriodsEnd s t :=
  .of_conds (h.get .conds hconds)

theorem conditionEnd_periodsEnd (s : State) {key : CondKey} (hends : EndsWithPeriod key) : PeriodsEnd s (s.conditionEnd key) := by
  intro k
  rw [conditionEnd_record]
  split
  · subst k; exact .inr ⟨hends, rfl⟩
  · exact .inl rfl

theorem endPeriod_periodsEnd (s : State) (l : LoopNo) : PeriodsEnd s (s.endPeriod l) := by
  refine .ite ?_ (.refl s)
  refine .trans ?_ (conditionEnd_periodsEnd _ ⟨l, .inr (.inr rfl)⟩)
  refine .trans ?_ (conditionEnd_periodsEnd _ ⟨l, .inr (.inl rfl)⟩)
  refine .trans ?_ (conditionEnd_periodsEnd _ ⟨l, .inl rfl⟩)
  exact .of_conds rfl

theorem deEnergise_periodsEnd (s : State) (l : LoopNo) : PeriodsEnd s (s.deEnergise l) :=
  .ite (.ite ((endPeriod_periodsEnd s l).trans (.of_reach (releaseStale_reach _ _))) (endPeriod_periodsEnd s l)) (.refl s)

theorem block_periodsEnd (s : State) (l : LoopNo) (cause : BlockCause) : PeriodsEnd s (s.block l cause) :=
  (PeriodsEnd.of_reach (onChannel_reach s l _)).trans (deEnergise_periodsEnd _ l)

theorem channelForHold_periodsEnd (s : State) (l : LoopNo) (old : SafePosition) : PeriodsEnd s (s.channelForHold l old) := by
  have hset (st : ChannelState) (why : PendingFor) : PeriodsEnd s (s.setChannelState l st why) := .of_reach (setChannelState_reach s l st why)
  have hblock := block_periodsEnd s l .fault
  exact .ite (.refl s) (.ite hblock (.ite (.ite (.refl s) (.of_reach (unblock_reach s l _)))
    (.ite (.ite (hset _ _) (.refl s)) (.ite (.ite hblock (hset _ _)) (.refl s)))))

theorem handHold_periodsEnd (s : State) (before : Conditions) (l : LoopNo) : PeriodsEnd s (s.handHold before l) :=
  ((PeriodsEnd.foldl (fun u o => channelForHold_periodsEnd u o _) _ s).trans
    (.of_reach (Reach.foldl (markReleased_reach before) _ _))).trans (.of_reach (correctForHolds_reach _ _ _))

theorem settleStuckClosed_periodsEnd (s : State) (c : LoopClass) (l : LoopNo) : PeriodsEnd s (s.settleStuckClosed c l) := by
  unfold State.settleStuckClosed
  split
  next h =>
    have hc : c = .stuckClosed := by simp_all
    exact conditionEnd_periodsEnd s ⟨l, .inr (.inr (by rw [hc]))⟩
  next => exact .refl s

theorem actOnPresence_periodsEnd (s : State) (before : Conditions) (key : CondKey) : PeriodsEnd s (s.actOnPresence before key) := by
  cases key with
  | loop c l => exact (handHold_periodsEnd s before l).trans (settleStuckClosed_periodsEnd _ c l)
  | manifold c m =>
    cases c with
    | flowShutdown => exact .foldl (fun u o => block_periodsEnd u o _) _ s
    | _ => exact .refl s
  | room r => exact .of_reach (raise_reach s _)
  | part c =>
    cases c with
    | sourceSilent => exact (PeriodsEnd.of_reach (raise_reach s _)).trans (.of_reach (correctForSource_reach _ _))
    | _ => exact .refl s

/-! ### The hold of a loop (R145) -/

theorem loopClassNo_surjective : Function.Surjective loopClassNo
  | 0 => ⟨.driveOvercurrent, rfl⟩
  | 1 => ⟨.driveOpen, rfl⟩
  | 2 => ⟨.stuckClosed, rfl⟩
  | 3 => ⟨.stuckOpen, rfl⟩
  | 4 => ⟨.returnSensor, rfl⟩

theorem ownPositions_eq {c d : Conditions} {l : LoopNo} (h : ∀ k, (d.get (.loop k l)).holds = (c.get (.loop k l)).holds) :
    ownPositions d l = ownPositions c l := by
  have hmap : (d.loops.get l).map CondRecord.holds = (c.loops.get l).map CondRecord.holds := by
    refine Tab.ext_get fun i => ?_
    obtain ⟨k, rfl⟩ := loopClassNo_surjective i
    rw [Tab.get_map, Tab.get_map]
    exact h k
  exact congrArg Tab.cells hmap

theorem PeriodsEnd.hold {s t : State} (h : PeriodsEnd s t) (hstore : t.store = s.store) (l : LoopNo) : t.hold l = s.hold l := by
  have hown (o : LoopNo) : ownPositions t.conds o = ownPositions s.conds o := by
    refine ownPositions_eq fun k => ?_
    change (t.record (.loop k o)).holds = (s.record (.loop k o)).holds
    rcases h (.loop k o) with hsame | ⟨-, hended⟩
    · rw [hsame]
    · rw [hended]; rfl
  simp only [State.hold, loopHold, hstore, hown]

/-! ### Listing and holding (R143) -/

theorem enlist_listedBy (s : State) (key : CondKey) : ListedBy s (s.enlist key (s.response key).mode) key := by
  unfold State.enlist ListedBy
  by_cases hignore : (s.response key).mode = .ignore
  · simp [hignore]
  by_cases hlisted : s.listed key = true
  · simp [hignore, hlisted, recur]
  by_cases hroom : s.faults.entries.length < 32
  · simp [hignore, hlisted, hroom, State.raise, Nat.not_le.mpr hroom]
  · by_cases hover : s.faults.overflow = true <;> simp [hignore, hlisted, hroom, hover, State.raise]

theorem listedBy_of_faults {s t u : State} {key : CondKey} (h : ListedBy s t key) (hfaults : u.faults = t.faults) : ListedBy s u key := by
  unfold ListedBy
  rw [hfaults]
  exact h

theorem conditionPresent_listedBy (s : State) (key : CondKey) : ListedBy s (s.conditionPresent key) key :=
  listedBy_of_faults (enlist_listedBy s key) ((putRecord_reach _ key _).get .faults)

/-- The hold of a record after its response is applied stands whether or not the condition has ended meanwhile. -/
theorem heldBy_of_apply {s t : State} {key : CondKey} {b : Bool}
    (h : t.record key = { (s.record key).apply (s.response key) with present := b }) : HeldBy s t key := by
  unfold HeldBy
  rw [h]
  obtain ⟨mode, position⟩ := s.response key
  cases mode with
  | report => simp [CondRecord.apply, ResponseMode.holds]
  | ignore => simp [CondRecord.apply, ResponseMode.holds]
  | latch => cases hhold : (s.record key).hold <;> simp [CondRecord.apply, ResponseMode.holds, ResponseMode.hold, hhold]
  | retry => cases hhold : (s.record key).hold <;> simp [CondRecord.apply, ResponseMode.holds, ResponseMode.hold, hhold]

/-- What acting on a presence can reach: the fault list is not of it. -/
abbrev actFields : List Field := periodFields ++ planFields

theorem handHold_reach_actFields (s : State) (before : Conditions) (l : LoopNo) : Reach actFields s (s.handHold before l) :=
  (((Reach.foldl (handChannel_reach before) _ s).mono (by decide)).trans
    ((Reach.foldl (markReleased_reach before) _ _).mono (by decide))).trans ((correctForHolds_reach _ _ _).mono (by decide))

theorem settleStuckClosed_reach (s : State) (c : LoopClass) (l : LoopNo) : Reach [.conds, .notices] s (s.settleStuckClosed c l) :=
  .ite (conditionEnd_reach s _) (.refl _ s)

theorem actOnPresence_faults (s : State) (before : Conditions) (key : CondKey) : (s.actOnPresence before key).faults = s.faults := by
  cases key with
  | loop c l => exact ((handHold_reach_actFields s before l).trans ((settleStuckClosed_reach _ c l).mono (by decide))).get .faults
  | manifold c m =>
    cases c with
    | flowShutdown => exact (shutDown_reach s m).get .faults
    | _ => rfl
  | room r => rfl
  | part c =>
    cases c with
    | sourceSilent => exact (correctForSource_reach _ _).get .faults
    | _ => rfl

/-! ### A condition that becomes present -/

theorem becomePresent_of_absent {s : State} {key : CondKey} (h : s.present key = false) :
    s.becomePresent key = (s.conditionPresent key).actOnPresence s.conds key := by
  simp [State.becomePresent, h]

theorem becomePresent_of_present {s : State} {key : CondKey} (h : s.present key = true) : s.becomePresent key = s := by
  simp [State.becomePresent, h]

theorem becomePresent_listedBy {s : State} {key : CondKey} (h : s.present key = false) : ListedBy s (s.becomePresent key) key := by
  rw [becomePresent_of_absent h]
  exact listedBy_of_faults (conditionPresent_listedBy s key) (actOnPresence_faults _ _ key)

/-- The record of a condition that becomes present is as its response leaves it, the condition ended again only with an energised period. -/
theorem becomePresent_record {s : State} {key : CondKey} (h : s.present key = false) :
    (s.becomePresent key).record key = (s.record key).apply (s.response key)
      ∨ EndsWithPeriod key ∧ (s.becomePresent key).record key = { (s.record key).apply (s.response key) with present := false } := by
  have happlied : (s.conditionPresent key).record key = (s.record key).apply (s.response key) := by simp [conditionPresent_record]
  rw [becomePresent_of_absent h, ← happlied]
  exact actOnPresence_periodsEnd _ _ key key

theorem becomePresent_heldBy {s : State} {key : CondKey} (h : s.present key = false) : HeldBy s (s.becomePresent key) key := by
  rcases becomePresent_record h with hrecord | ⟨-, hrecord⟩
  · exact heldBy_of_apply (b := ((s.record key).apply (s.response key)).present) hrecord
  · exact heldBy_of_apply hrecord

theorem apply_present (r : CondRecord) (resp : FaultResponse) : (r.apply resp).present = true := by
  unfold CondRecord.apply
  split
  · split <;> rfl
  · rfl

theorem becomePresent_present {s : State} {key : CondKey} (hends : ¬ EndsWithPeriod key) : (s.becomePresent key).present key = true := by
  cases h : s.present key with
  | true => rwa [becomePresent_of_present h]
  | false =>
    rcases becomePresent_record h with hrecord | ⟨hkey, -⟩
    · exact (congrArg CondRecord.present hrecord).trans (apply_present _ _)
    · exact absurd hkey hends

/-! ### The channel of a loop that comes under a CLOSED hold (R122) -/

theorem partner_ne (l : LoopNo) : partner l ≠ l := by revert l; decide

/-- The channel of `o` is in `t` as it was in `s`. -/
def ChannelKept (o : LoopNo) (s t : State) : Prop := t.channels.get o = s.channels.get o

theorem ChannelKept.refl (o : LoopNo) (s : State) : ChannelKept o s s := rfl

theorem ChannelKept.trans {o : LoopNo} {s t u : State} (h : ChannelKept o s t) (k : ChannelKept o t u) : ChannelKept o s u := Eq.trans k h

theorem ChannelKept.ite {o : LoopNo} {s t u : State} {c : Prop} [Decidable c] (h : ChannelKept o s t) (k : ChannelKept o s u) :
    ChannelKept o s (if c then t else u) := by
  split <;> assumption

theorem ChannelKept.of_channels {o : LoopNo} {s t : State} (h : t.channels = s.channels) : ChannelKept o s t := by
  rw [ChannelKept, h]

theorem onChannel_other (s : State) {l o : LoopNo} (f : Channel → Channel) (h : o ≠ l) : ChannelKept o s (s.onChannel l f) :=
  Tab.get_modify_ne _ _ h

theorem setChannelState_other (s : State) {l o : LoopNo} (st : ChannelState) (why : PendingFor) (h : o ≠ l) :
    ChannelKept o s (s.setChannelState l st why) := onChannel_other s _ h

theorem unblock_other (s : State) {l o : LoopNo} (cause : BlockCause) (h : o ≠ l) : ChannelKept o s (s.unblock l cause) :=
  .ite (.ite ((onChannel_other s _ h).trans (setChannelState_other _ _ _ h)) (onChannel_other s _ h)) (.refl o s)

theorem releaseStale_other (s : State) {l o : LoopNo} (h : o ≠ l) : ChannelKept o s (s.releaseStale l) :=
  .ite (unblock_other s _ h) (.refl o s)

theorem endPeriod_channels {s : State} {l : LoopNo} (h : s.energised l = true) :
    (s.endPeriod l).channels = s.channels.modify l Channel.undriven := by
  unfold State.endPeriod
  rw [if_pos h]
  exact ((((conditionEnd_reach _ _).trans (conditionEnd_reach _ _)).trans (conditionEnd_reach _ _)).get .channels)

theorem deEnergise_self (s : State) (l : LoopNo) :
    (s.deEnergise l).channels.get l = if s.energised l then (s.channels.get l).undriven else s.channels.get l := by
  unfold State.deEnergise
  split
  next henergised =>
    have hended : (s.endPeriod l).channels.get l = (s.channels.get l).undriven := by simp [endPeriod_channels henergised]
    rw [← hended]
    exact ChannelKept.ite (releaseStale_other _ (partner_ne l).symm) (.refl l _)
  next => rfl

/-- A channel de-energised touches no channel but its own and that of a follower it leads (R125). -/
theorem deEnergise_other (s : State) {l o : LoopNo} (hne : o ≠ l) (hfollows : o = partner l → s.effMode o ≠ .following) :
    ChannelKept o s (s.deEnergise l) := by
  unfold State.deEnergise
  split
  next henergised =>
    have hended : ChannelKept o s (s.endPeriod l) := by
      rw [ChannelKept, endPeriod_channels henergised]
      exact Tab.get_modify_ne _ _ hne
    have hstore : (s.endPeriod l).store = s.store := (endPeriod_reach s l).get .store
    dsimp only
    split
    next hpartner =>
      rw [State.effMode, hstore] at hpartner
      exact hended.trans (releaseStale_other _ fun ho => hfollows ho (ho ▸ hpartner))
    next => exact hended
  next => exact .refl o s

theorem block_other (s : State) {l o : LoopNo} (cause : BlockCause) (hne : o ≠ l) (hfollows : o = partner l → s.effMode o ≠ .following) :
    ChannelKept o s (s.block l cause) :=
  (onChannel_other s _ hne).trans (deEnergise_other (s.onChannel l _) hne hfollows)

theorem channelForHold_other (s : State) {l o : LoopNo} (old : SafePosition) (hne : o ≠ l)
    (hfollows : o = partner l → s.effMode o ≠ .following) : ChannelKept o s (s.channelForHold l old) :=
  have hset (st : ChannelState) (why : PendingFor) : ChannelKept o s (s.setChannelState l st why) := setChannelState_other s st why hne
  have hblock := block_other s .fault hne hfollows
  .ite (.refl o s) (.ite hblock (.ite (.ite (.refl o s) (unblock_other s _ hne))
    (.ite (.ite (hset _ _) (.refl o s)) (.ite (.ite hblock (hset _ _)) (.refl o s)))))

/-- The channel is de-energised and BLOCKED for a fault. -/
def FaultBlocked (s : State) (l : LoopNo) : Prop :=
  s.energised l = false ∧ (s.channels.get l).state = .blocked ∧ (s.channels.get l).causes.fault = true

theorem FaultBlocked.of_kept {s t : State} {l : LoopNo} (h : FaultBlocked s l) (hchannel : ChannelKept l s t) : FaultBlocked t l := by
  rw [ChannelKept] at hchannel
  rw [FaultBlocked, State.energised, hchannel]
  exact h

theorem block_faultBlocked (s : State) (l : LoopNo) : FaultBlocked (s.block l .fault) l := by
  unfold FaultBlocked State.energised State.block
  rw [deEnergise_self]
  split
  next => simp [Channel.undriven, Channel.energised, BlockCauses.put]
  next hidle => exact ⟨Bool.eq_false_iff.mpr hidle, by simp, by simp [BlockCauses.put]⟩

theorem channelForHold_of_closed {s : State} {l : LoopNo} {old : SafePosition} (hold : old ≠ .closed) (hnew : s.hold l = .closed) :
    s.channelForHold l old = s.block l .fault := by
  simp [State.channelForHold, hnew, hold]

/-- The planner's part of a changed hold touches no channel. -/
theorem handHold_channels (s : State) (before : Conditions) (l : LoopNo) :
    (s.handHold before l).channels = ((s.reach l).foldl (State.handChannel before) s).channels := by
  unfold State.handHold
  exact (((Reach.foldl (markReleased_reach before) _ _).mono (B := planFields) (by decide)).trans
    (correctForHolds_reach _ _ _)).get .channels

/-- R122, R145: a loop that comes under a CLOSED hold as the hold of its records is handed on. Where it leads a follower, the follower's turn after its own
leaves its channel as it is. -/
theorem handHold_faultBlocked {s : State} {before : Conditions} {l : LoopNo} (hold : s.holdUnder before l ≠ .closed)
    (hnew : s.hold l = .closed) : FaultBlocked (s.handHold before l) l := by
  have hown : State.handChannel before s l = s.block l .fault := channelForHold_of_closed hold hnew
  refine (block_faultBlocked s l).of_kept ?_
  rw [ChannelKept, handHold_channels, State.reach]
  split
  next hleads =>
    have hstore : (s.block l .fault).store = s.store := (block_reach s l _).get .store
    have hmode : (s.block l .fault).effMode l ≠ .following := by
      rw [State.effMode, hstore, ← State.effMode, hleads]
      decide
    rw [List.foldl_cons, List.foldl_cons, List.foldl_nil, hown]
    exact channelForHold_other _ _ (partner_ne l).symm fun _ => hmode
  next => rw [List.foldl_cons, List.foldl_nil, hown]

/-- A loop condition that becomes present is taken up, whatever its class. -/
theorem becomePresent_takenUp {s : State} {c : LoopClass} {l : LoopNo} (h : s.present (.loop c l) = false) :
    TakenUp s (s.becomePresent (.loop c l)) c l := by
  refine ⟨becomePresent_listedBy h, becomePresent_heldBy h, fun hold hnew => ?_⟩
  rw [becomePresent_of_absent h] at hnew ⊢
  have hstore : (s.conditionPresent (.loop c l)).store = s.store := (conditionPresent_reach s _).get .store
  rw [(actOnPresence_periodsEnd _ _ _).hold ((actOnPresence_reach _ _ _).get .store)] at hnew
  have hbefore : (s.conditionPresent (.loop c l)).holdUnder s.conds l ≠ .closed := by
    rw [State.holdUnder, hstore]
    exact hold
  exact (handHold_faultBlocked hbefore hnew).of_kept (.of_channels ((settleStuckClosed_reach _ c l).get .channels))

end Sys2Proof.Presence
end

section
/-! The sensor-fault condition of a thermistor channel (R46, R47). -/

namespace Sys2Proof.SensorFault

open Sys2Proof Sys2Proof.Machine Sys2Proof.Presence

/-! ### The record of a channel -/

theorem sensorKey_cases (ch : Fin 26) : (∃ l, sensorKey ch = .loop .returnSensor l) ∨ ∃ m, sensorKey ch = .manifold .flowSensor m := by
  unfold sensorKey
  split
  · exact .inl ⟨_, rfl⟩
  · exact .inr ⟨_, rfl⟩

theorem sensorKey_not_endsWithPeriod (ch : Fin 26) : ¬ EndsWithPeriod (sensorKey ch) := by
  rintro ⟨o, hkey⟩
  rcases sensorKey_cases ch with ⟨l, hl⟩ | ⟨m, hm⟩
  · simp [hl] at hkey
  · simp [hm] at hkey

theorem actOnEnd_sensorKey (s : State) (ch : Fin 26) : s.actOnEnd (sensorKey ch) = s := by
  rcases sensorKey_cases ch with ⟨l, hl⟩ | ⟨m, hm⟩
  · rw [hl]; rfl
  · rw [hm]; rfl

/-! ### The decision (R46) -/

theorem sensorFault_of_absent {s : State} {ch : Fin 26} (h : s.present (sensorKey ch) = false) :
    s.sensorFault ch = true ↔ s.mayCarry ch = true ∧ 3 ≤ (s.sensors.get ch).invalidRun := by
  simp [State.sensorFault, faultDecision, h]

theorem sensorFault_of_present {s : State} {ch : Fin 26} (h : s.present (sensorKey ch) = true) :
    s.sensorFault ch = true ↔ s.mayCarry ch = true ∧ (s.sensors.get ch).validRun < 3 := by
  simp [State.sensorFault, faultDecision, h]

theorem exec_sensorFaultPresent {s : State} (hrun : s.mode = .running) (ch : Fin 26) :
    exec (.sensorFaultPresent ch) s = .next (if s.sensorFault ch then s.becomePresent (sensorKey ch) else s) :=
  congrArg _ (whileRunning_running hrun _)

theorem exec_sensorFaultEnds {s : State} (hrun : s.mode = .running) (ch : Fin 26) :
    exec (.sensorFaultEnds ch) s = .next (if s.sensorFault ch then s else s.becomeAbsent (sensorKey ch)) :=
  congrArg _ (whileRunning_running hrun _)

theorem becomeAbsent_sensorKey {s : State} {ch : Fin 26} (h : s.present (sensorKey ch) = true) :
    s.becomeAbsent (sensorKey ch) = s.conditionEnd (sensorKey ch) := by
  rw [State.becomeAbsent, if_pos h, actOnEnd_sensorKey]

/-- Settles O40: each command is its decision, and a changed condition is taken up or ended as for every class. -/
theorem sensorFaultsFollowTheCounts : Obligations.SensorFaultsFollowTheCounts := by
  intro ch s hrun
  dsimp only
  rw [exec_sensorFaultPresent hrun, exec_sensorFaultEnds hrun]
  refine ⟨fun hshort habsent => ?_, fun hpresent => ?_, fun hcarries hdue habsent => ?_, fun hcarries hshort hpresent => ?_,
    fun hover hpresent => ?_⟩
  · have hno : ¬ s.sensorFault ch = true := by
      rw [sensorFault_of_absent habsent]
      rintro ⟨hcarries, hdue⟩
      exact hshort.elim (· hcarries) fun hlt => by omega
    rw [if_neg hno]
  · rw [becomePresent_of_present hpresent, ite_self]
  · have hreach := becomePresent_reach s (sensorKey ch)
    rw [if_pos ((sensorFault_of_absent habsent).mpr ⟨hcarries, hdue⟩)]
    refine ⟨_, rfl, becomePresent_present (sensorKey_not_endsWithPeriod ch), becomePresent_listedBy habsent,
      becomePresent_heldBy habsent, fun l hl => ?_, eq_with_faultFields hreach, hreach.get .sensors⟩
    rw [hl] at habsent ⊢
    exact becomePresent_takenUp habsent
  · rw [if_pos ((sensorFault_of_present hpresent).mpr ⟨hcarries, hshort⟩)]
  · have hno : ¬ s.sensorFault ch = true := by
      rw [sensorFault_of_present hpresent]
      rintro ⟨hcarries, hshort⟩
      exact hover.elim (· hcarries) fun hle => by omega
    rw [if_neg hno, becomeAbsent_sensorKey hpresent]
    refine ⟨_, rfl, eq_with_conds_notices (conditionEnd_reach s _), ?_, fun key hkey => ?_⟩
    · rw [conditionEnd_record, if_pos rfl]
    · rw [conditionEnd_record, if_neg hkey]

end Sys2Proof.SensorFault
end

section
/-! A trim of the plan against a ceiling (R84): what ending one run leaves of the plan, and the ceiling that each slot of the walk meets. -/

namespace Sys2Proof.Trim

open Sys2Proof Sys2Proof.Machine

/-! ### The per-slot records after a recomputation (R70, R83) -/

theorem replan_slotPlan_before (s : State) {s0 u : Nat} (h : u < s0) : (s.replan s0).slotPlan u = s.slotPlan u := by
  unfold State.slotPlan
  split
  · simp [State.replan, h]
  · rfl

theorem replan_slotPlan_weight (s : State) {s0 u : Nat} (h : s0 ≤ u) (hu : u < 48) :
    ((s.replan s0).slotPlan u).weight = s.openWeight u := by
  simp [State.slotPlan, State.replan, hu, Nat.not_lt.mpr h]

/-- The records of the slots from `s0` on hold the W of the runs and holds as they stand. -/
def WeightsFrom (s0 : Nat) (s : State) : Prop := ∀ u, s0 ≤ u → u < 48 → (s.slotPlan u).weight = s.openWeight u

theorem replan_weightsFrom (s : State) (s0 : Nat) : WeightsFrom s0 (s.replan s0) := fun _ h hu => replan_slotPlan_weight s h hu

/-! ### Plans that are cut (R84) -/

/-- From `s` to `t` the plan has only lost cover, none of it before slot `s0`, and the holds and weights stand. -/
structure Cut (s0 : Nat) (s t : State) : Prop where
  reach : Reach [.plans, .slots, .duty] s t
  covers : ∀ l u, (t.run l).covers u = true → (s.run l).covers u = true
  coversBefore : ∀ l u, u < s0 → (t.run l).covers u = (s.run l).covers u
  slotBefore : ∀ u, u < s0 → t.slotPlan u = s.slotPlan u

theorem Cut.refl (s0 : Nat) (s : State) : Cut s0 s s := ⟨.refl _ s, fun _ _ h => h, fun _ _ _ => rfl, fun _ _ => rfl⟩

theorem Cut.trans {s0 : Nat} {s t v : State} (h : Cut s0 s t) (k : Cut s0 t v) : Cut s0 s v where
  reach := h.reach.trans k.reach
  covers l u hu := h.covers l u (k.covers l u hu)
  coversBefore l u hu := (k.coversBefore l u hu).trans (h.coversBefore l u hu)
  slotBefore u hu := (k.slotBefore u hu).trans (h.slotBefore u hu)

/-- R83: W cannot rise by a cut. -/
theorem Cut.openWeight_le {s0 : Nat} {s t : State} (h : Cut s0 s t) (u : Nat) : t.openWeight u ≤ s.openWeight u := by
  have hstore : t.store = s.store := h.reach.get .store
  have hconds : t.conds = s.conds := h.reach.get .conds
  have hhold (l : LoopNo) : t.hold l = s.hold l := by simp only [State.hold, hstore, hconds]
  have hweight (l : LoopNo) : t.weight l = s.weight l := by simp only [State.weight, State.loopSettings, hstore]
  have hdrives (l : LoopNo) : t.drivesFollower l = s.drivesFollower l := by
    simp only [State.drivesFollower, State.effMode, hstore, hhold]
  have hrunWeight (l : LoopNo) : t.runWeight l = s.runWeight l := by simp only [State.runWeight, hdrives, hweight]
  refine List.foldl_rel (r := (· ≤ ·)) (Nat.le_refl 0) fun l _ w w' hw => ?_
  rw [hhold, hweight, hrunWeight]
  have hrun : (if (t.run l).covers u then s.runWeight l else 0) ≤ if (s.run l).covers u then s.runWeight l else 0 := by
    by_cases hcovers : (t.run l).covers u = true
    · exact Nat.le_of_eq (by rw [if_pos hcovers, if_pos (h.covers l u hcovers)])
    · rw [if_neg hcovers]
      exact Nat.zero_le _
  omega

theorem Cut.withinCeiling {s0 ceiling u : Nat} {s t : State} (h : Cut s0 s t) (hs : s.withinCeiling ceiling u) :
    t.withinCeiling ceiling u :=
  hs.imp (Nat.le_trans (h.openWeight_le u)) fun hnone l => Bool.eq_false_iff.mpr fun hl => absurd (h.covers l u hl) (Bool.eq_false_iff.mp (hnone l))

/-! ### One run ended (R84) -/

theorem covers_iff (r : Run) (u : Nat) :
    r.covers u = true ↔ r.kind ≠ .none ∧ r.removed = false ∧ r.first ≤ u ∧ u ≤ r.last := by
  simp [Run.covers, and_assoc]

/-- A run ended before slot `t` keeps its cover below `t` where it has begun by `s0`, and covers nothing where it has not. -/
theorem stop_covers_iff (r : Run) {s0 t : Nat} (begun notBegun : EndCause) (ht : r.covers t = true) (hs0 : s0 ≤ t) (u : Nat) :
    (r.stop s0 (t - 1) begun notBegun).covers u = true ↔ r.covers u = true ∧ r.first < s0 ∧ u < t := by
  rw [covers_iff] at ht
  unfold Run.stop
  split
  · simp only [covers_iff]
    grind
  · simp only [covers_iff]
    grind

theorem trimRun_run (s : State) (s0 t : Nat) (l k : LoopNo) :
    (s.trimRun s0 t l).run k = if k = l then (s.run l).stop s0 (t - 1) .trimmed .removed else s.run k := by
  unfold State.run State.trimRun
  simp only [State.replan_plans, State.onDuty_plans, State.onRun_plans, Tab.get_modify]
  split <;> rfl

theorem trimRun_weightsFrom (s : State) (s0 t : Nat) (l : LoopNo) : WeightsFrom s0 (s.trimRun s0 t l) := replan_weightsFrom _ s0

theorem trimRun_covers_self {s : State} {s0 t : Nat} {l : LoopNo} (ht : (s.run l).covers t = true) (hs0 : s0 ≤ t) :
    ((s.trimRun s0 t l).run l).covers t = false := by
  rw [trimRun_run, if_pos rfl, Bool.eq_false_iff, Ne, stop_covers_iff _ _ _ ht hs0]
  omega

theorem trimRun_cut {s : State} {s0 t : Nat} {l : LoopNo} (ht : (s.run l).covers t = true) (hs0 : s0 ≤ t) :
    Cut s0 s (s.trimRun s0 t l) where
  reach := trimRun_reach s s0 t l
  covers k u hu := by
    rw [trimRun_run] at hu
    split at hu
    · subst k
      exact ((stop_covers_iff _ _ _ ht hs0 u).mp hu).1
    · exact hu
  coversBefore k u hu := by
    rw [trimRun_run]
    split
    · subst k
      rw [Bool.eq_iff_iff, stop_covers_iff _ _ _ ht hs0, covers_iff]
      grind
    · rfl
  slotBefore u hu := replan_slotPlan_before _ hu

/-! ### The choice of a run (R84) -/

/-- A trim stops short of the ceiling only at a slot without a run: once a run is found, the choice only passes to another one. -/
theorem trimVictim_eq_none {s : State} {t : Nat} (h : s.trimVictim t = none) (l : LoopNo) : (s.run l).covers t = false := by
  unfold State.trimVictim at h
  cases hcovering : allLoops.filter fun l => (s.run l).covers t with
  | nil => exact Bool.eq_false_iff.mpr (List.filter_eq_nil_iff.mp hcovering l (List.mem_finRange l))
  | cons x xs =>
    rw [hcovering, List.foldl_cons] at h
    refine absurd h (List.foldlRecOn xs _ (motive := (· ≠ none)) (Option.some_ne_none x) fun best _ k _ => ?_)
    cases best with
    | none => exact Option.some_ne_none k
    | some b => dsimp only; split <;> exact Option.some_ne_none _

theorem trimVictim_covers {s : State} {t : Nat} {l : LoopNo} (h : s.trimVictim t = some l) : (s.run l).covers t = true := by
  unfold State.trimVictim at h
  revert h
  refine List.foldlRecOn (motive := fun best : Option LoopNo => best = some l → (s.run l).covers t = true) _ _
    (fun h => absurd h (Option.some_ne_none l).symm) fun best hbest k hk => ?_
  have hkt : (s.run k).covers t = true := (List.mem_filter.mp hk).2
  intro h
  cases best with
  | none => exact Option.some.inj h ▸ hkt
  | some b =>
    dsimp only at h
    split at h
    · exact Option.some.inj h ▸ hkt
    · exact hbest h

/-! ### The walk (R84) -/

theorem countP_lt_countP {α : Type} {p q : α → Bool} {xs : List α} (hqp : ∀ a, q a = true → p a = true) {x : α} (hx : x ∈ xs)
    (hp : p x = true) (hq : q x = false) : xs.countP q < xs.countP p := by
  obtain ⟨before, after, rfl⟩ := List.append_of_mem hx
  have hbefore := List.countP_mono_left (l := before) fun a _ => hqp a
  have hafter := List.countP_mono_left (l := after) fun a _ => hqp a
  rw [List.countP_append, List.countP_append, List.countP_cons_of_pos hp, List.countP_cons_of_neg (Bool.eq_false_iff.mp hq)]
  omega

/-- How many runs cover a slot. -/
def coveringRuns (s : State) (t : Nat) : Nat := allLoops.countP fun l => (s.run l).covers t

theorem coveringRuns_le (s : State) (t : Nat) : coveringRuns s t ≤ 24 :=
  Nat.le_trans List.countP_le_length (Nat.le_of_eq List.length_finRange)

theorem covers_eq_false_of_coveringRuns {s : State} {t : Nat} (h : coveringRuns s t = 0) (l : LoopNo) : (s.run l).covers t = false :=
  Bool.eq_false_iff.mpr (List.countP_eq_zero.mp h l (List.mem_finRange l))

theorem trimRun_coveringRuns_lt {s : State} {s0 t : Nat} {l : LoopNo} (ht : (s.run l).covers t = true) (hs0 : s0 ≤ t) :
    coveringRuns (s.trimRun s0 t l) t < coveringRuns s t :=
  countP_lt_countP (fun k => (trimRun_cut ht hs0).covers k t) (List.mem_finRange l) ht (trimRun_covers_self ht hs0)

/-- Each round ends one run that covers the slot, so that as many rounds as such runs are enough. -/
theorem trimSlot_spec {s0 ceiling t n : Nat} {s : State} (hs0 : s0 ≤ t) (ht : t < 48) (hs : WeightsFrom s0 s)
    (hn : coveringRuns s t ≤ n) :
    Cut s0 s (State.trimSlot s0 ceiling t n s) ∧ WeightsFrom s0 (State.trimSlot s0 ceiling t n s)
      ∧ (State.trimSlot s0 ceiling t n s).withinCeiling ceiling t := by
  induction n generalizing s with
  | zero => exact ⟨.refl s0 s, hs, .inr (covers_eq_false_of_coveringRuns (Nat.le_zero.mp hn))⟩
  | succ n ih =>
    unfold State.trimSlot
    split
    next hover =>
      split
      next hvictim => exact ⟨.refl s0 s, hs, .inr (trimVictim_eq_none hvictim)⟩
      next l hvictim =>
        have hcovers := trimVictim_covers hvictim
        have hfewer := trimRun_coveringRuns_lt hcovers hs0
        obtain ⟨hcut, hrest⟩ := ih (trimRun_weightsFrom s s0 t l) (by omega)
        exact ⟨(trimRun_cut hcovers hs0).trans hcut, hrest⟩
    next hwithin =>
      rw [hs t hs0 ht] at hwithin
      exact ⟨.refl s0 s, hs, .inl (Nat.not_lt.mp hwithin)⟩

/-- The walk of a trim over some slots. -/
def trimSlots (s0 ceiling : Nat) (slots : List Nat) (s : State) : State := slots.foldl (fun s t => State.trimSlot s0 ceiling t 24 s) s

theorem trim_eq_trimSlots (s : State) (s0 ceiling : Nat) : s.trim s0 ceiling = trimSlots s0 ceiling (span s0 (48 - s0)) s := rfl

/-- A walk over slots from `s0` on leaves each of them within the ceiling: a later slot's trim only cuts. -/
theorem trimSlots_spec {s0 ceiling : Nat} {slots : List Nat} (hslots : ∀ t ∈ slots, s0 ≤ t ∧ t < 48) {s : State} (hs : WeightsFrom s0 s) :
    Cut s0 s (trimSlots s0 ceiling slots s)
      ∧ ∀ t ∈ slots, (trimSlots s0 ceiling slots s).withinCeiling ceiling t := by
  induction slots generalizing s with
  | nil => exact ⟨.refl s0 s, fun _ h => absurd h List.not_mem_nil⟩
  | cons t ts ih =>
    obtain ⟨hs0, ht⟩ := hslots t List.mem_cons_self
    obtain ⟨hcut, hweights, hwithin⟩ := trimSlot_spec (ceiling := ceiling) hs0 ht hs (coveringRuns_le s t)
    obtain ⟨hcuts, hwithins⟩ := ih (fun u hu => hslots u (List.mem_cons_of_mem t hu)) hweights
    exact ⟨hcut.trans hcuts, List.forall_mem_cons.mpr ⟨hcuts.withinCeiling hwithin, hwithins⟩⟩

theorem mem_span {start len t : Nat} : t ∈ span start len ↔ start ≤ t ∧ t < start + len := by
  simp only [span, List.mem_map, List.mem_range]
  constructor
  · rintro ⟨i, hi, rfl⟩
    omega
  · intro h
    exact ⟨t - start, by omega, by omega⟩

/-- Settles O56: a trim is a cut whose walk meets the ceiling at each of its slots. -/
theorem trimKeepsCeiling : Obligations.TrimKeepsCeiling := by
  intro s s0 ceiling slot hslot
  rw [trim_eq_trimSlots]
  obtain ⟨hcut, hwithin⟩ := trimSlots_spec (ceiling := ceiling) (slots := span s0 (48 - s0))
    (fun t ht => by rw [mem_span] at ht; omega) (replan_weightsFrom s s0)
  refine ⟨fun hs0 => hwithin slot (mem_span.mpr (by omega)), fun l => hcut.covers l slot, fun hbefore => ⟨?_, fun l => ?_⟩⟩
  · exact (hcut.slotBefore slot hbefore).trans (replan_slotPlan_before s hbefore)
  · exact hcut.coversBefore l slot hbefore

end Sys2Proof.Trim
end
